-- ==== Sys2Proof/Word.lean ====
section
/-! DEFINITION. The words CRC8FE works on: bytes, 16-bit words, 32-bit bus data and 14-bit window offsets. -/

namespace Sys2Proof

/-- An unsigned byte: a data byte, a CRC byte or the running remainder (spec R9, R11). -/
abbrev Byte := BitVec 8

/-- "Word: a 16-bit unsigned value" (spec glossary; R9 "Word width: 16 bits"). -/
abbrev Word16 := BitVec 16

/-- A register as the host bus carries it (R15, R36). -/
abbrev Word32 := BitVec 32

/-- A byte offset inside the block's 16 KiB window, 0x0000 to 0x3FFF (R35). -/
abbrev Offset := BitVec 14

end Sys2Proof
end

