-- ==== Sys2Proof/Config.lean ====
section
/-! DEFINITION. What is fixed for one CRC8FE: the CRC parameters of R9, the hardwired ID and CONFIG
registers, and the parameters the spec leaves open, which are opaque constants without a body. -/

namespace Sys2Proof

/-- How a host bus may carry the bus error of R37 ("an error response, an abort, an exception in the host
processor"), with a fourth kind for any protocol the three do not name. DESIGN CHOICE, log entry 3 (safe). -/
inductive BusErrorSignal where
  | errorResponse
  | abort
  | hostException
  | platform (code : Nat)
  deriving DecidableEq, Repr, Inhabited

namespace Config

/-- R9, R19: POLY, "x^8 + x^5 + x^4 + 1, with the x^8 term implicit". -/
def poly : Byte := 0x31#8

/-- R9, R19: INIT, the remainder every two-byte CRC starts from. -/
def init : Byte := 0xFF#8

/-- R9, R19: XOROUT, "Final XOR: none (0x00)". -/
def xorOut : Byte := 0x00#8

/-- R9, R19: REFIN, no reflection of the input. -/
def refIn : Bool := false

/-- R9, R19: REFOUT, no reflection of the output. -/
def refOut : Bool := false

/-- R18: the ID register, the ASCII text CRC8. -/
def idWord : Word32 := 0x43524338#32

/-- R19: the CONFIG register, fields [31:26] reserved, [25] REFOUT, [24] REFIN, [23:16] XOROUT, [15:8] INIT, [7:0] POLY. -/
def configWord : Word32 :=
  0#6 ++ BitVec.ofBool refOut ++ BitVec.ofBool refIn ++ xorOut ++ init ++ poly

/-- The largest MAX_FRAMES the FBUF window can hold (R8). -/
def maxCapacity : Nat := 341

/-- R8: MAX_FRAMES less one; opaque, so nothing can be proved of it but its range. Log entry 5 (safe). -/
opaque frames : Fin 341

/-- R8: the build parameter MAX_FRAMES of the machine that `State.reset` describes, from 1 to 341. -/
def maxFrames : Nat := frames.val + 1

/-- RESET_FBUF (R10, R32): what FBUF entry `i` holds after reset number `epoch`. A free draw, log entry 4 (safe). -/
opaque resetFbuf : (epoch : Nat) → (i : Nat) → Byte

/-- RESET_WBUF (R10, R32): what WBUF entry `j` holds after reset number `epoch`. A free draw, log entry 4 (safe). -/
opaque resetWbuf : (epoch : Nat) → (j : Nat) → Word16

/-- BUS_ERROR_SIGNAL (R10, R37): how a refused access is signalled to the host. Log entry 3 (safe). -/
opaque busErrorSignal : BusErrorSignal

/-- R98: how the stalled transfer of a command ends that reset number `epoch` abandoned. Log entry 3 (safe). -/
opaque abandonedSignal : (epoch : Nat) → BusErrorSignal

/-- BASE_ADDR (R35, D3): the platform address of the window's first byte. Log entry 6 (safe). -/
opaque baseAddr : Nat

end Config

end Sys2Proof
end

