-- ==== Sys2Proof/Syntax.lean ====
section
/-! DEFINITION. The command set (R53), the registers by name (R35), and what a host can do at the port:
bus accesses and the reset input (R36, R97). -/

namespace Sys2Proof

/-- The four commands of R53. None carries an operand: "No command carries an immediate, a register number or a
mode in the CMD word" (R52). -/
inductive Instr where
  /-- CRC_COMPUTE, R68. -/
  | crcCompute
  /-- CRC_VALIDATE, R69. -/
  | crcValidate
  /-- READ_WORDS, R74. -/
  | readWords
  /-- WRITE_WORDS, R76. -/
  | writeWords
  deriving DecidableEq, Repr

/-- The mapped registers of R35, each named by its row. -/
inductive Reg where
  | id
  | config
  | capacity
  | cmd
  | status
  | operand
  | len
  | result
  | errCrc
  | errPos
  | fatalLen
  /-- FBUF[i], 0 ≤ i < 3*MAX_FRAMES. -/
  | fbuf (i : Nat)
  /-- WBUF[j], 0 ≤ j < MAX_FRAMES. -/
  | wbuf (j : Nat)
  deriving DecidableEq, Repr

/-- The widths an access on the 32-bit host bus can have (R36). -/
inductive Width where
  | w8
  | w16
  | w32
  deriving DecidableEq, Repr

/-- One host bus access (R12 MemRead and MemWrite, R36). -/
inductive Access where
  | read (off : Offset) (width : Width)
  | write (off : Offset) (width : Width) (data : Word32)
  deriving DecidableEq, Repr

/-- What the outside world can do to the block: an access, or the reset input, alone (R97) or while the command of
a CMD write of value `v` is in progress (R98). -/
inductive HostEvent where
  | access (a : Access)
  | reset
  | resetDuringCommand (v : Word32)
  deriving DecidableEq, Repr

/-- What the block answers on the bus at the end of a transfer. -/
inductive Response where
  /-- An accepted read, with the register's value (R38). -/
  | readData (data : Word32)
  /-- An accepted write, whether it had an effect or was ignored (R39, R85). -/
  | writeAccepted
  /-- A refused read: the data lines carry `data`, and a bus error is signalled (R37). -/
  | refusedRead (data : Word32) (signal : BusErrorSignal)
  /-- A refused write: a bus error is signalled (R37). -/
  | refusedWrite (signal : BusErrorSignal)
  /-- The stalled CMD write of a command that a reset abandoned; how it ends is open (R98). -/
  | abandoned (signal : BusErrorSignal)
  deriving DecidableEq, Repr

end Sys2Proof
end

