-- ==== Sys2Proof/Machine/AddressMap.lean ====
section
/-! DEFINITION. The register map of R35, in both directions, the acceptance check of R36, and where the window
stands in the platform's address space (BASE_ADDR). -/

namespace Sys2Proof.Machine

/-- `offset(REG)` of R59: the byte offset of a register in the window (R35). -/
def regOffset : Reg → Offset
  | .id => 0x000#14
  | .config => 0x004#14
  | .capacity => 0x008#14
  | .cmd => 0x00C#14
  | .status => 0x010#14
  | .operand => 0x014#14
  | .len => 0x018#14
  | .result => 0x01C#14
  | .errCrc => 0x020#14
  | .errPos => 0x024#14
  | .fatalLen => 0x028#14
  | .fbuf i => BitVec.ofNat 14 (0x1000 + 4 * i)
  | .wbuf j => BitVec.ofNat 14 (0x2000 + 4 * j)

/-- The register in 32-bit slot `n` of the window (byte offset 4n) of a block of `maxFrames` frames, none where
R35 says unmapped. -/
def regAtSlot (maxFrames n : Nat) : Option Reg :=
  match n with
  | 0 => some .id
  | 1 => some .config
  | 2 => some .capacity
  | 3 => some .cmd
  | 4 => some .status
  | 5 => some .operand
  | 6 => some .len
  | 7 => some .result
  | 8 => some .errCrc
  | 9 => some .errPos
  | 10 => some .fatalLen
  | n =>
    if 0x400 ≤ n ∧ n < 0x800 ∧ n - 0x400 < 3 * maxFrames then some (.fbuf (n - 0x400))
    else if 0x800 ≤ n ∧ n < 0xC00 ∧ n - 0x800 < maxFrames then some (.wbuf (n - 0x800))
    else none

/-- The register an aligned offset names; none for an offset that is unmapped or not a multiple of 4 (R35, R36). -/
def regAt (maxFrames : Nat) (off : Offset) : Option Reg :=
  if off.toNat % 4 = 0 then regAtSlot maxFrames (off.toNat / 4) else none

/-- R36: the register an access reaches; none when the access is refused ("its width is 8 or 16 bits, … its offset
is not a multiple of 4, or … its offset is unmapped"). -/
def reach (maxFrames : Nat) (off : Offset) (width : Width) : Option Reg :=
  match width with
  | .w8 => none
  | .w16 => none
  | .w32 => regAt maxFrames off

/-- The register an access reaches, read or write alike (R36). -/
def accessReach (maxFrames : Nat) : Access → Option Reg
  | .read off width => reach maxFrames off width
  | .write off width _ => reach maxFrames off width

/-- The number of bytes in the window (R35). -/
def windowBytes : Nat := 0x4000

/-- The platform address of an offset of the window (R35, D3). -/
def platformAddress (off : Offset) : Nat := Config.baseAddr + off.toNat

/-- The offset the block sees of a platform address; none outside its window (R35 "The block only sees offsets"). -/
def windowOffset (addr : Nat) : Option Offset :=
  if Config.baseAddr ≤ addr ∧ addr < Config.baseAddr + windowBytes then
    some (BitVec.ofNat 14 (addr - Config.baseAddr))
  else none

end Sys2Proof.Machine
end

