-- ==== Sys2Proof/WellFormed.lean ====
section
/-! DEFINITION. What it is to be well formed: a command, a capacity (R8), an access the block accepts (R36) and a
host program made of such accesses. -/

namespace Sys2Proof

/-- R52: a command has no operand field, so every command is well formed. -/
def Instr.wellFormed : Instr → Bool
  | .crcCompute => true
  | .crcValidate => true
  | .readWords => true
  | .writeWords => true

/-- R8: "It is an integer from 1 to 341 inclusive." -/
def legalCapacity (maxFrames : Nat) : Bool := 1 ≤ maxFrames && maxFrames ≤ Config.maxCapacity

/-- R36: the one kind of access the block accepts. -/
def Access.wellFormed (maxFrames : Nat) (a : Access) : Bool := (Machine.accessReach maxFrames a).isSome

/-- A host event none of whose accesses is refused. -/
def HostEvent.wellFormed (maxFrames : Nat) : HostEvent → Bool
  | .access a => a.wellFormed maxFrames
  | .reset => true
  | .resetDuringCommand _ => true

/-- A host program (R59) none of whose accesses is refused. -/
def wellFormedProgram (maxFrames : Nat) (p : List HostEvent) : Bool := p.all (HostEvent.wellFormed maxFrames)

end Sys2Proof
end

