-- ==== Sys2Proof/Decode.lean ====
section
/-! DEFINITION. Decoding a CMD value (R52, R53, R56, R57), and the encoder. -/

namespace Sys2Proof

/-- Why a CMD value spells no command (R57). -/
inductive IllegalCmd where
  /-- `v[31:4] != 0`. -/
  | reservedBitsSet
  /-- `v[31:4] = 0` and OPCODE is 0x0 or from 0x5 to 0xF. -/
  | opcodeUnassigned (opcode : BitVec 4)
  deriving DecidableEq, Repr

/-- R52: the OPCODE field, CMD[3:0]. -/
def cmdOpcode (v : Word32) : BitVec 4 := v.extractLsb' 0 4

/-- R52: the reserved field, CMD[31:4]. -/
def cmdReserved (v : Word32) : BitVec 28 := v.extractLsb' 4 28

/-- R53: the command an OPCODE selects. -/
def opcodeInstr (op : BitVec 4) : Option Instr :=
  match op with
  | 0x1#4 => some .crcCompute
  | 0x2#4 => some .crcValidate
  | 0x3#4 => some .readWords
  | 0x4#4 => some .writeWords
  | _ => none

/-- R56 `execute_command`: the command a CMD value spells, or why it spells none. Total on all 2^32 values. -/
def decode (v : Word32) : Except IllegalCmd Instr :=
  if cmdReserved v ≠ 0#28 then .error .reservedBitsSet
  else
    match opcodeInstr (cmdOpcode v) with
    | some i => .ok i
    | none => .error (.opcodeUnassigned (cmdOpcode v))

/-- R53: the OPCODE of a command. -/
def instrOpcode : Instr → BitVec 4
  | .crcCompute => 0x1#4
  | .crcValidate => 0x2#4
  | .readWords => 0x3#4
  | .writeWords => 0x4#4

/-- R52, R53: the CMD value of a command, reserved bits 0. -/
def encode (i : Instr) : Word32 := 0#28 ++ instrOpcode i

/-- The host's question about a row of the opcode table: `nbits` bits of the command word, every bit above them 0.
A value that does not fit the one 32-bit CMD write (R52) is no command. -/
def decodeTableWord (nbits w : Nat) : Option Instr :=
  if w % 2 ^ nbits < 2 ^ 32 then (decode (BitVec.ofNat 32 (w % 2 ^ nbits))).toOption else none

end Sys2Proof
end

