-- ==== Sys2Proof/Machine/State.lean ====
section
/-! DEFINITION. The architectural state of one CRC8FE (R14), the host port's pending accesses and last answer,
the reset state (R97), and the reasons a step could stop. -/

namespace Sys2Proof.Machine

/-- The block: the fields R14 says a state record needs, and the hardwired MAX_FRAMES of CAPACITY (R20). -/
structure Block where
  /-- CAPACITY[15:0], the build parameter (R8, R20). -/
  maxFrames : Nat
  /-- STATUS[3:0] CODE (R22, R23). -/
  code : BitVec 4
  /-- STATUS[4] FATAL (R22). -/
  fatal : Bool
  /-- OPERAND[23:0] VALUE (R24). -/
  operand : BitVec 24
  /-- LEN[15:0] COUNT (R25). -/
  len : Word16
  /-- RESULT (R26). -/
  result : Word32
  /-- ERR_CRC[15:0]: COMPUTED in [15:8], EXPECTED in [7:0] (R27). -/
  errCrc : BitVec 16
  /-- ERR_POS: BYTE_OFFSET in [31:16], FRAME_INDEX in [15:0] (R28). -/
  errPos : Word32
  /-- FATAL_LEN[15:0] LENGTH (R29). -/
  fatalLen : Word16
  /-- FBUF, entry i at place i of the list (R30). -/
  fbuf : List Byte
  /-- WBUF, entry j at place j of the list (R31). -/
  wbuf : List Word16
  deriving DecidableEq, Repr

/-- The machine: the block, and the model's own fields for what stands at its port (log entries 1, 4, 12). -/
structure State where
  /-- The architectural state (R14). -/
  block : Block
  /-- What the host still asks for, in the order the bus delivers it (R17, R47). -/
  pending : List HostEvent
  /-- What the block answered in the most recent transfer; none when there was none since reset. -/
  response : Option Response
  /-- How many resets there have been; the free draws of the buffers read it. -/
  epoch : Nat
  deriving DecidableEq, Repr

/-- No step of this machine stops with a fault: the fatal precondition failure is a halt the state shows (R84, R85)
and a refused access leaves the block as it was (R37). Log entry 8. -/
inductive Fault where
  deriving DecidableEq, Repr

/-- Why a step could be refused. -/
inductive Refusal where
  /-- Raised by `exec` for a command whose meaning is not written; no arm of this model raises it. Safe: the
  machine stops where the hardware goes on. -/
  | notModelled (mnemonic : String)
  deriving DecidableEq, Repr

/-- R97: the reset state of a block of `maxFrames` frames, its buffers the free draws of reset number `epoch` (R32). -/
def Block.atReset (maxFrames epoch : Nat) : Block where
  maxFrames := maxFrames
  code := 0#4
  fatal := false
  operand := 0#24
  len := 0#16
  result := 0#32
  errCrc := 0#16
  errPos := 0#32
  fatalLen := 0#16
  fbuf := (List.range (3 * maxFrames)).map (Config.resetFbuf epoch)
  wbuf := (List.range maxFrames).map (Config.resetWbuf epoch)

/-- The machine right after reset: the block as R97 says, and a port at which nothing has been asked yet
("After reset it waits for host accesses"). -/
def State.reset : State where
  block := Block.atReset Config.maxFrames 0
  pending := []
  response := none
  epoch := 0

end Sys2Proof.Machine
end

