-- ==== Sys2Proof/Machine/Update.lean ====
section
/-! DEFINITION. One named update per field of the block and of the state; Laws/State.lean has their lemmas. -/

namespace Sys2Proof.Machine

def Block.setCode (b : Block) (v : BitVec 4) : Block := { b with code := v }
def Block.setFatal (b : Block) (v : Bool) : Block := { b with fatal := v }
def Block.setOperand (b : Block) (v : BitVec 24) : Block := { b with operand := v }
def Block.setLen (b : Block) (v : Word16) : Block := { b with len := v }
def Block.setResult (b : Block) (v : Word32) : Block := { b with result := v }
def Block.setErrCrc (b : Block) (v : BitVec 16) : Block := { b with errCrc := v }
def Block.setErrPos (b : Block) (v : Word32) : Block := { b with errPos := v }
def Block.setFatalLen (b : Block) (v : Word16) : Block := { b with fatalLen := v }
def Block.setFbuf (b : Block) (v : List Byte) : Block := { b with fbuf := v }
def Block.setWbuf (b : Block) (v : List Word16) : Block := { b with wbuf := v }

def State.setBlock (s : State) (v : Block) : State := { s with block := v }
def State.setPending (s : State) (v : List HostEvent) : State := { s with pending := v }
def State.setResponse (s : State) (v : Option Response) : State := { s with response := v }
def State.setEpoch (s : State) (v : Nat) : State := { s with epoch := v }

end Sys2Proof.Machine
end

