-- ==== Sys2Proof/Machine/Flags.lean ====
section
/-! DEFINITION. The block's only flags, STATUS.CODE and STATUS.FATAL (R22, R23). -/

namespace Sys2Proof.Machine

/-- R23: no command has completed since reset. -/
def codeNone : BitVec 4 := 0#4
/-- R23: success. -/
def codeOk : BitVec 4 := 1#4
/-- R23: ChecksumError of CRC_VALIDATE. -/
def codeCrcMismatch : BitVec 4 := 2#4
/-- R23: TransferError of READ_WORDS wrapping a ChecksumError. -/
def codeFrameMismatch : BitVec 4 := 3#4
/-- R23: a CMD write that spells no command. -/
def codeIllegalCmd : BitVec 4 := 5#4
/-- R23: LEN exceeds the buffer capacity. -/
def codeLenRange : BitVec 4 := 6#4
/-- R23: fatal precondition failure. -/
def codePrecondition : BitVec 4 := 7#4

/-- R22: the STATUS register, [31:5] reserved, [4] FATAL, [3:0] CODE. -/
def statusWord (b : Block) : Word32 := 0#27 ++ BitVec.ofBool b.fatal ++ b.code

end Sys2Proof.Machine
end

