-- ==== Sys2Proof/Machine/Operands.lean ====
section
/-! DEFINITION. Operand forms: OPERAND as a word or as a frame (R54), LEN.COUNT (R55), and the big-endian
assembly and split of words (R40, R41). -/

namespace Sys2Proof.Machine

/-- R41: `hi = word[15:8]`. -/
def hiByte (w : Word16) : Byte := w.extractLsb' 8 8

/-- R41: `lo = word[7:0]`. -/
def loByte (w : Word16) : Byte := w.extractLsb' 0 8

/-- R41: `word = {byte0, byte1}`, big-endian. -/
def joinWord (byte0 byte1 : Byte) : Word16 := byte0 ++ byte1

/-- R54, word form W: `hi` is OPERAND[15:8]. -/
def operandWordHi (o : BitVec 24) : Byte := o.extractLsb' 8 8

/-- R54, word form W: `lo` is OPERAND[7:0]. -/
def operandWordLo (o : BitVec 24) : Byte := o.extractLsb' 0 8

/-- R54, frame form F: `hi`, byte 0 of the frame, is OPERAND[23:16]. -/
def operandFrameHi (o : BitVec 24) : Byte := o.extractLsb' 16 8

/-- R54, frame form F: `lo`, byte 1 of the frame, is OPERAND[15:8]. -/
def operandFrameLo (o : BitVec 24) : Byte := o.extractLsb' 8 8

/-- R54, frame form F: `exp`, byte 2 of the frame, is OPERAND[7:0]. -/
def operandFrameCrc (o : BitVec 24) : Byte := o.extractLsb' 0 8

/-- R55: LEN.COUNT as an unsigned count, neither scaled nor offset. -/
def lenCount (b : Block) : Nat := b.len.toNat

end Sys2Proof.Machine
end

