-- ==== Sys2Proof/Machine/Frames.lean ====
section
/-! DEFINITION. The frame functions over sequences of any length (R70, R71, R72). They say what READ_WORDS and
WRITE_WORDS compute; the commands themselves run on the buffers (Machine/Transfer.lean). -/

namespace Sys2Proof.Machine

/-- R70: a frame is valid if and only if `b2 == CRC8(b0, b1)`. -/
def validFrame (b0 b1 b2 : Byte) : Bool := b2 == crc8 b0 b1

/-- The three kinds of outcome of R71. -/
inductive ReadOutcome where
  /-- `Fatal(n)`: the length is not a nonzero multiple of 3. -/
  | fatal (n : Nat)
  /-- `FrameError(k, expected, computed)`: the first mismatch. -/
  | frameError (k : Nat) (expected computed : Byte)
  /-- `Ok(W)`. -/
  | ok (words : List Word16)
  deriving DecidableEq, Repr

/-- A word put in front of an outcome's words; an error stays what it is ("no partial-result-plus-error mode"). -/
def ReadOutcome.prepend (w : Word16) : ReadOutcome → ReadOutcome
  | .ok ws => .ok (w :: ws)
  | .fatal n => .fatal n
  | .frameError k e c => .frameError k e c

/-- R71 steps 2 to 4 over the frames from number `k` on. -/
def readFrames (k : Nat) : List Byte → ReadOutcome
  | b0 :: b1 :: b2 :: rest =>
    match validate b0 b1 b2 with
    | .ok => (readFrames (k + 1) rest).prepend (joinWord b0 b1)
    | .checksumError expected computed => .frameError k expected computed
  | _ => .ok []

/-- R71 step 1: "The length must be a nonzero multiple of 3". -/
def badLength (n : Nat) : Bool := n == 0 || n % 3 != 0

/-- R71 `read_words(B)`. -/
def readWordsOf (bytes : List Byte) : ReadOutcome :=
  if badLength bytes.length then .fatal bytes.length else readFrames 0 bytes

/-- R72: the frame of one word, "its two big-endian bytes followed by … checksum byte". -/
def frameOf (w : Word16) : List Byte := [hiByte w, loByte w, crcWord w]

/-- R72 `write_words(W)`. -/
def writeWordsOf (words : List Word16) : List Byte := words.flatMap frameOf

end Sys2Proof.Machine
end

