-- ==== Sys2Proof/Machine/Ops.lean ====
section
/-! DEFINITION. The named operations over registers and buffers: buffer entries, register reads and writes
(R38, R39), the fatal entry (R84) and what leaves it (R97, R98), the other outcomes that only set a code. -/

namespace Sys2Proof.Machine

/-! ### Buffers -/

/-- The form the buffers keep: a legal capacity (R8) and exactly `3*MAX_FRAMES` bytes (R30) and `MAX_FRAMES` words
(R31). It stands where a sparse memory would have its canonical form: equal buffers are equal lists (log entry 7). -/
abbrev Memory.wf (b : Block) : Prop :=
  1 ≤ b.maxFrames ∧ b.maxFrames ≤ Config.maxCapacity ∧
    b.fbuf.length = 3 * b.maxFrames ∧ b.wbuf.length = b.maxFrames

/-- FBUF[i] (R12, R30). Places the buffer does not have read 0; only a block without `Memory.wf` can ask for one
(R43, log entry 7). -/
def fbufAt (b : Block) (i : Nat) : Byte := b.fbuf.getD i 0#8

/-- WBUF[j] (R12, R31); see `fbufAt`. -/
def wbufAt (b : Block) (j : Nat) : Word16 := b.wbuf.getD j 0#16

/-- `FBUF[i] <- v`. -/
def setFbufAt (b : Block) (i : Nat) (v : Byte) : Block := b.setFbuf (b.fbuf.set i v)

/-- `WBUF[j] <- v`. -/
def setWbufAt (b : Block) (j : Nat) (v : Word16) : Block := b.setWbuf (b.wbuf.set j v)

/-! ### Registers as the host sees them -/

/-- R20: CAPACITY, [31:16] reserved, [15:0] MAX_FRAMES. -/
def capacityWord (b : Block) : Word32 := (BitVec.ofNat 16 b.maxFrames).setWidth 32

/-- R38 `MemRead`: the register's 32 bits, reserved bits 0. Reads do not look at STATUS.FATAL. -/
def readReg (b : Block) : Reg → Word32
  | .id => Config.idWord
  | .config => Config.configWord
  | .capacity => capacityWord b
  | .cmd => 0#32
  | .status => statusWord b
  | .operand => b.operand.setWidth 32
  | .len => b.len.setWidth 32
  | .result => b.result
  | .errCrc => b.errCrc.setWidth 32
  | .errPos => b.errPos
  | .fatalLen => b.fatalLen.setWidth 32
  | .fbuf i => (fbufAt b i).setWidth 32
  | .wbuf j => (wbufAt b j).setWidth 32

/-- R39 `MemWrite` of `v` to a register other than CMD, in a block that is not halted: reserved bits are dropped,
read-only registers ignore it. (A write to CMD runs a command instead: Machine/Bus.lean.) -/
def writeReg (b : Block) (r : Reg) (v : Word32) : Block :=
  match r with
  | .operand => b.setOperand (v.extractLsb' 0 24)
  | .len => b.setLen (v.extractLsb' 0 16)
  | .fbuf i => setFbufAt b i (v.extractLsb' 0 8)
  | .wbuf j => setWbufAt b j (v.extractLsb' 0 16)
  | .id => b
  | .config => b
  | .capacity => b
  | .cmd => b
  | .status => b
  | .result => b
  | .errCrc => b
  | .errPos => b
  | .fatalLen => b

/-! ### Outcomes the commands share -/

/-- R57 `illegal_command()`. -/
def illegalCommand (b : Block) : Block := b.setCode codeIllegalCmd

/-- R83: LEN_RANGE does exactly this. -/
def lenRange (b : Block) : Block := b.setCode codeLenRange

/-- The end of a command that succeeds with `r` in RESULT (R68, R69, R74, R76). -/
def succeed (b : Block) (r : Word32) : Block := (b.setResult r).setCode codeOk

/-- R27: ERR_CRC, COMPUTED in [15:8] and EXPECTED in [7:0]. -/
def errCrcWord (expected computed : Byte) : BitVec 16 := computed ++ expected

/-- R28: ERR_POS of frame `k`, BYTE_OFFSET = 3k in [31:16] and FRAME_INDEX = k in [15:0]. -/
def errPosWord (k : Nat) : Word32 := BitVec.ofNat 16 (3 * k) ++ BitVec.ofNat 16 k

/-- A checksum error reported under `code` for frame `k` (R69, R74, R81). -/
def reportMismatch (b : Block) (code : BitVec 4) (k : Nat) (expected computed : Byte) : Block :=
  ((b.setErrCrc (errCrcWord expected computed)).setErrPos (errPosWord k)).setCode code

/-- R84 `raise Fatal(n)`, the block's one trap entry: STATUS.FATAL, STATUS.CODE and FATAL_LEN, and nothing else.
There is no saved pc or mode and no handler: "Control goes nowhere". -/
def raiseFatal (b : Block) (n : Word16) : Block :=
  ((b.setFatal true).setCode codePrecondition).setFatalLen n

/-- R86, R97: the only way out of the fatal halt, the reset input: the block of the same build in its reset state,
with fresh draws in both buffers. -/
def applyReset (s : State) (rest : List HostEvent) (answer : Option Response) : State where
  block := Block.atReset s.block.maxFrames (s.epoch + 1)
  pending := rest
  response := answer
  epoch := s.epoch + 1

end Sys2Proof.Machine
end

