-- ==== Sys2Proof/Machine/Bus.lean ====
section
/-! DEFINITION. The host port: one pending event served, in the order of checks of R87, up to the command a CMD
write starts; and how accesses reach the port. -/

namespace Sys2Proof.Machine

/-- What serving the port's next event comes to: a state, or a command to run at a state. -/
inductive Service where
  | done (s : State)
  | run (i : Instr) (s : State)
  deriving DecidableEq, Repr

/-- The transfer at the head of the port ends with answer `r`; `rest` is still to come. -/
def answer (s : State) (rest : List HostEvent) (r : Response) : State := (s.setPending rest).setResponse (some r)

/-- R36, R37, R38: a host read. It changes nothing of the block; a refused one returns data 0 and signals a bus error. -/
def serveRead (s : State) (rest : List HostEvent) (off : Offset) (width : Width) : State :=
  match reach s.block.maxFrames off width with
  | none => answer s rest (.refusedRead 0#32 Config.busErrorSignal)
  | some r => answer s rest (.readData (readReg s.block r))

/-- R56: the command a CMD value spells is run; a value that spells none is the illegal command of R57. -/
def serveCommand (s : State) (v : Word32) : Service :=
  match decode v with
  | .ok i => .run i s
  | .error _ => .done (s.setBlock (illegalCommand s.block))

/-- R36, R37, R39, R85, R87: a host write. First the bus-level refusal, then the halt, then the register. -/
def serveWrite (s : State) (rest : List HostEvent) (off : Offset) (width : Width) (v : Word32) : Service :=
  match reach s.block.maxFrames off width with
  | none => .done (answer s rest (.refusedWrite Config.busErrorSignal))
  | some r =>
    if s.block.fatal then .done (answer s rest .writeAccepted)
    else if r = .cmd then serveCommand (answer s rest .writeAccepted) v
    else .done ((answer s rest .writeAccepted).setBlock (writeReg s.block r v))

/-- One event of the port: an access, the reset input (R97), or the reset input during a command, which abandons it
and ends its bus transfer in an open way (R98). -/
def serveEvent (s : State) (rest : List HostEvent) : HostEvent → Service
  | .access (.read off width) => .done (serveRead s rest off width)
  | .access (.write off width v) => serveWrite s rest off width v
  | .reset => .done (applyReset s rest none)
  | .resetDuringCommand _ =>
    .done (applyReset s rest (some (.abandoned (Config.abandonedSignal (s.epoch + 1)))))

/-- R47: the oldest pending event is served. With none the block waits, unchanged (R97 "it waits for host accesses"). -/
def serve (s : State) : Service :=
  match s.pending with
  | [] => .done s
  | e :: rest => serveEvent s rest e

/-- The bits of a command word as the opcode table numbers them: `nbits` bits of `w`, the bits above them 0. -/
def tableWord (nbits w : Nat) : Word32 := BitVec.ofNat 32 (w % 2 ^ nbits)

/-- A host write of `v` to CMD (R56). -/
def cmdWrite (v : Word32) : HostEvent := .access (.write (regOffset .cmd) .w32 v)

/-- A host read at a platform address is queued behind what is already pending; outside the window it does not reach
the block (R35, R47). -/
def State.deliverRead (s : State) (addr : Nat) (width : Width) : State :=
  match windowOffset addr with
  | some off => s.setPending (s.pending ++ [.access (.read off width)])
  | none => s

/-- A host write at a platform address; see `State.deliverRead`. -/
def State.deliverWrite (s : State) (addr : Nat) (width : Width) (v : Word32) : State :=
  match windowOffset addr with
  | some off => s.setPending (s.pending ++ [.access (.write off width v)])
  | none => s

end Sys2Proof.Machine
end

