-- ==== Sys2Proof/Machine/Engine.lean ====
section
/-! DEFINITION. The commands that expose the CRC-8 engine: CRC_COMPUTE (R68) and CRC_VALIDATE (R69). -/

namespace Sys2Proof.Machine

/-- R68: `RESULT <- zext_32(CRC8(OPERAND[15:8], OPERAND[7:0]))`, `STATUS.CODE <- OK`. -/
def crcComputeBlock (b : Block) : Block :=
  succeed b ((crc8 (operandWordHi b.operand) (operandWordLo b.operand)).setWidth 32)

/-- R69: RESULT is the computed CRC on both outcomes; a mismatch is reported as CRC_MISMATCH at frame 0. -/
def crcValidateBlock (b : Block) : Block :=
  let computed := crc8 (operandFrameHi b.operand) (operandFrameLo b.operand)
  match validate (operandFrameHi b.operand) (operandFrameLo b.operand) (operandFrameCrc b.operand) with
  | .ok => succeed b (computed.setWidth 32)
  | .checksumError e c => reportMismatch (b.setResult (computed.setWidth 32)) codeCrcMismatch 0 e c

/-- CRC_COMPUTE. -/
def execCrcCompute (s : State) : Host.Outcome State Fault Refusal := .next (s.setBlock (crcComputeBlock s.block))

/-- CRC_VALIDATE. -/
def execCrcValidate (s : State) : Host.Outcome State Fault Refusal := .next (s.setBlock (crcValidateBlock s.block))

end Sys2Proof.Machine
end

