-- ==== Sys2Proof/Machine/Transfer.lean ====
section
/-! DEFINITION. The buffer commands READ_WORDS (R74) and WRITE_WORDS (R76), as loops over frames from 0 upward. -/

namespace Sys2Proof.Machine

/-- What the validation pass of R74 reports of the first bad frame. -/
structure BadFrame where
  index : Nat
  expected : Byte
  computed : Byte
  deriving DecidableEq, Repr

/-- R74, validation pass: the first bad frame among the `n` frames of FBUF from frame `k` on. -/
def firstBadFrame (b : Block) : (n k : Nat) → Option BadFrame
  | 0, _ => none
  | n + 1, k =>
    match validate (fbufAt b (3 * k)) (fbufAt b (3 * k + 1)) (fbufAt b (3 * k + 2)) with
    | .ok => firstBadFrame b n (k + 1)
    | .checksumError e c => some { index := k, expected := e, computed := c }

/-- R74, commit pass: `WBUF[k] <- {FBUF[3k], FBUF[3k+1]}` for `n` frames from frame `k` on. -/
def commitFrames : (n k : Nat) → Block → Block
  | 0, _, b => b
  | n + 1, k, b =>
    commitFrames n (k + 1) (setWbufAt b k (joinWord (fbufAt b (3 * k)) (fbufAt b (3 * k + 1))))

/-- R76: the three bytes of frame `k`, from WBUF[k]. -/
def emitFrame (b : Block) (k : Nat) : Block :=
  let w := wbufAt b k
  setFbufAt (setFbufAt (setFbufAt b (3 * k) (hiByte w)) (3 * k + 1) (loByte w)) (3 * k + 2) (crcWord w)

/-- R76: the loop over `n` words from word `k` on. -/
def emitFrames : (n k : Nat) → Block → Block
  | 0, _, b => b
  | n + 1, k, b => emitFrames n (k + 1) (emitFrame b k)

/-- R74 from the capacity check on, for a LEN.COUNT that passed the fatal precondition (R73, R87). -/
def readWordsWithin (b : Block) : Block :=
  if 3 * b.maxFrames < lenCount b then lenRange b
  else
    match firstBadFrame b (lenCount b / 3) 0 with
    | some bad => (reportMismatch b codeFrameMismatch bad.index bad.expected bad.computed).setResult 0#32
    | none => succeed (commitFrames (lenCount b / 3) 0 b) (BitVec.ofNat 32 (lenCount b / 3))

/-- R74: the fatal precondition is tested first, on LEN.COUNT alone (R73). -/
def readWordsBlock (b : Block) : Block :=
  if badLength (lenCount b) then raiseFatal b b.len else readWordsWithin b

/-- R76: `RESULT <- zext_32(3*m)` after the frames are written; LEN_RANGE above the capacity (R75). -/
def writeWordsBlock (b : Block) : Block :=
  if b.maxFrames < lenCount b then lenRange b
  else succeed (emitFrames (lenCount b) 0 b) (BitVec.ofNat 32 (3 * lenCount b))

/-- READ_WORDS. -/
def execReadWords (s : State) : Host.Outcome State Fault Refusal := .next (s.setBlock (readWordsBlock s.block))

/-- WRITE_WORDS. -/
def execWriteWords (s : State) : Host.Outcome State Fault Refusal := .next (s.setBlock (writeWordsBlock s.block))

end Sys2Proof.Machine
end

