-- ==== Sys2Proof/Machine/Dispatch.lean ====
section
/-! DEFINITION. One arm per command, each one call of its meaning. -/

namespace Sys2Proof.Machine

def exec (i : Instr) (s : State) : Host.Outcome State Fault Refusal :=
  match i with
  | .crcCompute => Sys2Proof.Machine.execCrcCompute s
  | .crcValidate => Sys2Proof.Machine.execCrcValidate s
  | .readWords => Sys2Proof.Machine.execReadWords s
  | .writeWords => Sys2Proof.Machine.execWriteWords s

end Sys2Proof.Machine
end

