-- ==== Sys2Proof/Machine/Step.lean ====
section
/-! DEFINITION. One step of the machine: the oldest pending event, with the command a CMD write starts, "one
indivisible step" (R45, R47, R100). -/

namespace Sys2Proof.Machine

/-- One step: one bus access or one reset, served whole. -/
def step (s : State) : Host.Outcome State Fault Refusal :=
  match serve s with
  | .done s' => .next s'
  | .run i s' => exec i s'

/-- The state in which the very next access is a CMD write of the table word: the block fetches nothing (R17, R50),
its commands arrive as CMD writes, so this is where an instruction is "placed". -/
def State.withFetchWord (s : State) (nbits w : Nat) : State :=
  s.setPending (cmdWrite (tableWord nbits w) :: s.pending)

end Sys2Proof.Machine
end

