-- ==== Sys2Proof/Machine/HostProgram.lean ====
section
/-! DEFINITION. The host-program notation of R59 and the pseudo-operations of R60. -/

namespace Sys2Proof.Machine

/-- R59 `WR <REG>, <value>`. -/
def wr (r : Reg) (v : Word32) : HostEvent := .access (.write (regOffset r) .w32 v)

/-- R59 `RD <REG>`. -/
def rd (r : Reg) : HostEvent := .access (.read (regOffset r) .w32)

/-- R59 `WR CMD, <mnemonic>`. -/
def wrCommand (i : Instr) : HostEvent := wr .cmd (encode i)

/-- R59: what a triple of a program's encoding says in its second place. -/
inductive Direction where
  | r
  | w
  deriving DecidableEq, Repr

/-- R59: "The encoding of a program is its list of (offset, R/W, value) triples." A read carries no value of its own;
a reset is no line of a program. -/
def triple : HostEvent → Option (Offset × Direction × Word32)
  | .access (.read off _) => some (off, .r, 0#32)
  | .access (.write off _ v) => some (off, .w, v)
  | .reset => none
  | .resetDuringCommand _ => none

/-- The pseudo-operations of R60. -/
inductive Pseudo where
  | compute (w : Word16)
  | validate (b0 b1 b2 : Byte)
  | loadF (i : Nat) (bytes : List Byte)
  | loadW (j : Nat) (words : List Word16)
  | decode (n : Word32)
  | encode (m : Word32)
  deriving DecidableEq, Repr

/-- R60 `LOADF i, b0, b1, …`. -/
def loadFEvents : Nat → List Byte → List HostEvent
  | _, [] => []
  | i, b :: bs => wr (.fbuf i) (b.setWidth 32) :: loadFEvents (i + 1) bs

/-- R60 `LOADW j, w0, w1, …`. -/
def loadWEvents : Nat → List Word16 → List HostEvent
  | _, [] => []
  | j, w :: ws => wr (.wbuf j) (w.setWidth 32) :: loadWEvents (j + 1) ws

/-- R60: "their meaning is exactly their expansion". -/
def expand : Pseudo → List HostEvent
  | .compute w => [wr .operand (w.setWidth 32), wrCommand .crcCompute, rd .result]
  | .validate b0 b1 b2 => [wr .operand ((b0 ++ b1 ++ b2 : BitVec 24).setWidth 32), wrCommand .crcValidate, rd .status]
  | .loadF i bytes => loadFEvents i bytes
  | .loadW j words => loadWEvents j words
  | .decode n => [wr .len n, wrCommand .readWords, rd .status]
  | .encode m => [wr .len m, wrCommand .writeWords, rd .status]

end Sys2Proof.Machine
end

