-- ==== Sys2Proof/Safety.lean ====
section
/-! DEFINITION. The terms statements are made in: running, halted, the invariant of the block, runs of several
steps, and the interleavings of two masters' accesses. -/

namespace Sys2Proof

/-- An event that is a host access, and no reset. -/
def HostEvent.isAccess : HostEvent → Bool
  | .access _ => true
  | .reset => false
  | .resetDuringCommand _ => false

/-- An event that is a host read, accepted or refused. -/
def HostEvent.isRead : HostEvent → Bool
  | .access (.read _ _) => true
  | .access (.write _ _ _) => false
  | .reset => false
  | .resetDuringCommand _ => false

end Sys2Proof

namespace Sys2Proof.Machine

/-- R85: "a state with STATUS.FATAL = 1 is never a good final state". -/
def State.running (s : State) : Prop := s.block.fatal = false

/-- `n` steps of the machine. -/
def run (n : Nat) (s : State) : Host.Outcome State Fault Refusal := Host.Core.run Sys2Proof.core n s

/-- Frame `k` of a byte sequence is valid (R70): `CRC8(B[3k], B[3k+1]) = B[3k+2]`. -/
def bytesValid (B : List Byte) (k : Nat) : Prop :=
  crc8 (B.getD (3 * k) 0#8) (B.getD (3 * k + 1) 0#8) = B.getD (3 * k + 2) 0#8

/-- A frame of FBUF is valid (R70). -/
def frameValid (b : Block) (k : Nat) : Prop :=
  validFrame (fbufAt b (3 * k)) (fbufAt b (3 * k + 1)) (fbufAt b (3 * k + 2)) = true

/-- The word frame `k` of FBUF carries (R70). -/
def frameWord (b : Block) (k : Nat) : Word16 := joinWord (fbufAt b (3 * k)) (fbufAt b (3 * k + 1))

/-- R47: `zs` is one order in which the interconnect may serialise the events of two masters, each in its own order. -/
inductive Interleaving : List HostEvent → List HostEvent → List HostEvent → Prop where
  | nil : Interleaving [] [] []
  | left {xs ys zs : List HostEvent} (e : HostEvent) : Interleaving xs ys zs → Interleaving (e :: xs) ys (e :: zs)
  | right {xs ys zs : List HostEvent} (e : HostEvent) : Interleaving xs ys zs → Interleaving xs (e :: ys) (e :: zs)

/-- What every step keeps true of the block. -/
structure Block.Inv (b : Block) : Prop where
  /-- R8, R30, R31: the capacity is legal and the buffers have their sizes. -/
  memory : Memory.wf b
  /-- R23, R82: "CODE never holds 4 or 8 to 15". -/
  codeLegal : b.code.toNat ≤ 7 ∧ b.code ≠ 4#4
  /-- R22, R84: the block is halted exactly when CODE is PRECONDITION. -/
  haltedIff : b.fatal = true ↔ b.code = codePrecondition
  /-- R29, R84, R85: FATAL_LEN is 0 until the halt, and then the length that caused it, still in LEN. -/
  fatalLength : if b.fatal then b.fatalLen = b.len ∧ badLength (lenCount b) = true else b.fatalLen = 0#16
  /-- R28: ERR_POS names a frame the buffer has, BYTE_OFFSET = 3 * FRAME_INDEX. -/
  errorPosition : ∃ k, k < b.maxFrames ∧ b.errPos = errPosWord k
  /-- R27: ERR_CRC is untouched or holds two different CRCs. -/
  errorCrc : b.errCrc = 0#16 ∨ b.errCrc.extractLsb' 8 8 ≠ b.errCrc.extractLsb' 0 8
  /-- R69: after a CRC_MISMATCH, ERR_POS is 0 and RESULT is the computed CRC, which differs from the expected one. -/
  afterCrcMismatch : b.code = codeCrcMismatch →
    b.errPos = 0#32 ∧ b.result = (b.errCrc.extractLsb' 8 8).setWidth 32 ∧
      b.errCrc.extractLsb' 8 8 ≠ b.errCrc.extractLsb' 0 8
  /-- R74: after a FRAME_MISMATCH, RESULT is 0 and ERR_CRC holds two different CRCs. -/
  afterFrameMismatch : b.code = codeFrameMismatch →
    b.result = 0#32 ∧ b.errCrc.extractLsb' 8 8 ≠ b.errCrc.extractLsb' 0 8
  /-- R26: RESULT is a CRC, a word count or a byte count of the buffers. -/
  resultBound : b.result.toNat ≤ 255 ∨ b.result.toNat ≤ 3 * b.maxFrames
  /-- R23: "no command has completed since reset", so the registers only commands write are as reset left them. -/
  untouched : b.code = codeNone → b.result = 0#32 ∧ b.errCrc = 0#16 ∧ b.errPos = 0#32

end Sys2Proof.Machine
end

