-- ==== Sys2Proof/Certificates/Slice0/Obligations.lean ====
section
/-! DEFINITION. The statements about CRC8FE, from the spec's numbered rules; OBLIGATIONS.json lists them. -/

open Sys2Proof Sys2Proof.Machine

/-! ### Commands and their words -/

/-- R53's table, word by word, and the host's numbering of the rows. -/
def Obligations.TableWordsSpellTheFourCommands : Prop :=
  decode 0x00000001#32 = .ok .crcCompute ∧ decode 0x00000002#32 = .ok .crcValidate ∧
  decode 0x00000003#32 = .ok .readWords ∧ decode 0x00000004#32 = .ok .writeWords ∧
  decodeTableWord 32 1 = some .crcCompute ∧ decodeTableWord 32 2 = some .crcValidate ∧
  decodeTableWord 32 3 = some .readWords ∧ decodeTableWord 32 4 = some .writeWords

/-- R53: decoding and encoding agree in both directions, so each command has exactly one CMD value and every other
CMD value is illegal. -/
def Obligations.DecodeAcceptsExactlyTheEncodings : Prop :=
  (encode .crcCompute = 0x00000001#32 ∧ encode .crcValidate = 0x00000002#32 ∧
    encode .readWords = 0x00000003#32 ∧ encode .writeWords = 0x00000004#32) ∧
  ∀ (v : Word32) (i : Instr), decode v = .ok i ↔ v = encode i

/-- R57: which of the 2^32 values are illegal, and that an illegal command changes STATUS.CODE and nothing else. -/
def Obligations.IllegalCommandSetsOnlyTheCode : Prop :=
  (∀ v : Word32,
    (v.extractLsb' 4 28 ≠ 0#28 ∨ v.extractLsb' 0 4 = 0x0#4 ∨ 5 ≤ (v.extractLsb' 0 4).toNat) ↔
      ∀ i, decode v ≠ .ok i) ∧
  (∀ v : Word32, (∃ i, decode v = .ok i) ↔
    v = 0x1#32 ∨ v = 0x2#32 ∨ v = 0x3#32 ∨ v = 0x4#32) ∧
  ∀ (s : State) (v : Word32) (rest : List HostEvent),
    s.block.fatal = false → s.pending = .access (.write 0x00C#14 .w32 v) :: rest → (∀ i, decode v ≠ .ok i) →
    step s = .next { s with
      block := { s.block with code := 5#4 }, pending := rest, response := some .writeAccepted }

/-- R56: a write of `v` to CMD while STATUS.FATAL = 0 is the command `v` spells, run in the same step; a value that
spells none is the illegal command. `step` is `exec` of the decoded command, with the access taken off the port and
answered. -/
def Obligations.StepRunsTheCommandWrittenToCmd : Prop :=
  ∀ (s : State) (v : Word32) (rest : List HostEvent),
    s.block.fatal = false → s.pending = .access (.write 0x00C#14 .w32 v) :: rest →
    (∀ i, decode v = .ok i →
      step s = exec i { s with pending := rest, response := some .writeAccepted }) ∧
    (v = 0x1#32 → step s = exec .crcCompute { s with pending := rest, response := some .writeAccepted }) ∧
    (v = 0x2#32 → step s = exec .crcValidate { s with pending := rest, response := some .writeAccepted }) ∧
    (v = 0x3#32 → step s = exec .readWords { s with pending := rest, response := some .writeAccepted }) ∧
    (v = 0x4#32 → step s = exec .writeWords { s with pending := rest, response := some .writeAccepted }) ∧
    ((v.extractLsb' 4 28 ≠ 0#28 ∨ v.extractLsb' 0 4 = 0x0#4 ∨ 5 ≤ (v.extractLsb' 0 4).toNat) →
      step s = .next { s with
        block := { s.block with code := 5#4 }, pending := rest, response := some .writeAccepted })

/-- The model's placing of a command (log entry 1): the word put at the port is the very next command that runs. -/
def Obligations.PlacedWordIsTheNextCommand : Prop :=
  ∀ (s : State) (nbits w : Nat) (i : Instr),
    s.block.fatal = false → decodeTableWord nbits w = some i →
    step (s.withFetchWord nbits w) = exec i { s with response := some .writeAccepted }

/-- R99: "every command is defined on every register value"; a command never touches what is still pending at the
port, the answer or the count of resets. -/
def Obligations.EveryCommandCompletes : Prop :=
  ∀ (i : Instr) (s : State), ∃ t, exec i s = .next t ∧
    t.pending = s.pending ∧ t.response = s.response ∧ t.epoch = s.epoch

/-! ### The CRC-8 engine -/

/-- R64: the table engine and the bit loop agree on every input, and T is a permutation of the bytes. -/
def Obligations.TableEngineEqualsTheBitLoop : Prop :=
  crcTable.length = 256 ∧
  (∀ i : Byte, crcTableAt i = crcStep 0x00#8 i) ∧
  (∀ r b : Byte, crcStep r b = crcTableAt (r ^^^ b)) ∧
  (∀ hi lo : Byte, crc8 hi lo = crcTableAt (crcTableAt (0xFF#8 ^^^ hi) ^^^ lo)) ∧
  Function.Bijective crcTableAt

/-- R63: `r` is `CRC8(hi, lo)` exactly when some quotient times x^8 + x^5 + x^4 + 1, plus `r`, is
`({hi, lo} ^ 0xFF00) · x^8`, over GF(2); `r` has 8 bits, so its degree is below the divisor's. -/
def Obligations.Crc8IsThePolynomialRemainder : Prop :=
  ∀ hi lo r : Byte,
    (∃ q : BitVec 16,
      gfMul 0x000131#24 16 q ^^^ r.setWidth 24 = ((hi ++ lo : BitVec 16) ^^^ 0xFF00#16).setWidth 24 <<< 8) ↔
    r = crc8 hi lo

/-- R66 (a): affinity, with the constant term 0x81. -/
def Obligations.CrcOfXorIsAffine : Prop :=
  crcWord 0x0000#16 = 0x81#8 ∧
  ∀ a b : Word16, crcWord (a ^^^ b) = crcWord a ^^^ crcWord b ^^^ crcWord 0x0000#16

/-- R66 (b): for each fixed byte the map from the other byte to the CRC is a bijection; so each high byte has exactly
one low byte for each CRC value, which makes 256 words for each CRC value. -/
def Obligations.CrcIsABijectionInEachByte : Prop :=
  (∀ hi : Byte, Function.Bijective (fun lo => crc8 hi lo)) ∧
  (∀ lo : Byte, Function.Bijective (fun hi => crc8 hi lo)) ∧
  ∀ c hi : Byte, ∃! lo, crcWord (joinWord hi lo) = c

/-- R66 (c): flipping bit i changes the CRC by S[i], which is `CRC8(1 << i) ^ 0x81`; the syndromes are nonzero and
distinct. -/
def Obligations.SingleBitFlipsChangeTheCrcByTheirSyndrome : Prop :=
  crcSyndromes.length = 16 ∧ crcSyndromes.Nodup ∧ 0x00#8 ∉ crcSyndromes ∧
  ∀ (w : Word16) (i : Nat), i < 16 →
    crcSyndromes.getD i 0#8 = crcWord (1#16 <<< i) ^^^ 0x81#8 ∧
    crcWord (w ^^^ (1#16 <<< i)) = crcWord w ^^^ crcSyndromes.getD i 0#8

/-- R66 (d): a change to exactly one of a valid frame's three bytes makes it invalid. -/
def Obligations.OneChangedByteMakesAFrameInvalid : Prop :=
  ∀ b0 b1 b2 v : Byte, validFrame b0 b1 b2 = true →
    (v ≠ b0 → validFrame v b1 b2 = false) ∧
    (v ≠ b1 → validFrame b0 v b2 = false) ∧
    (v ≠ b2 → validFrame b0 b1 v = false)

/-- R66 (e): `crc_step(0xFF, 0xFF) = 0x00`, so a word with high byte 0xFF has the CRC T[lo]. -/
def Obligations.HighByteFFLeavesTheTableEntry : Prop :=
  crcStep 0xFF#8 0xFF#8 = 0x00#8 ∧ (∀ lo : Byte, crc8 0xFF#8 lo = crcTableAt lo) ∧ crc8 0xFF#8 0x00#8 = 0x00#8

/-- R67: the received byte is *expected* and CRC8 of the data is *computed*. -/
def Obligations.ValidateComparesWithTheComputedCrc : Prop :=
  ∀ hi lo exp : Byte,
    (crc8 hi lo = exp → validate hi lo exp = .ok) ∧
    (crc8 hi lo ≠ exp → validate hi lo exp = .checksumError exp (crc8 hi lo))

/-- R41: big-endian assembly and the reverse split. -/
def Obligations.WordsAreAssembledBigEndian : Prop :=
  (∀ byte0 byte1 : Byte, (joinWord byte0 byte1).toNat = 256 * byte0.toNat + byte1.toNat ∧
    hiByte (joinWord byte0 byte1) = byte0 ∧ loByte (joinWord byte0 byte1) = byte1) ∧
  ∀ w : Word16, joinWord (hiByte w) (loByte w) = w ∧
    (hiByte w).toNat = w.toNat / 256 ∧ (loByte w).toNat = w.toNat % 256

/-! ### CRC_COMPUTE and CRC_VALIDATE -/

/-- R68: the CMD value of CRC_COMPUTE and its whole effect, in every state. -/
def Obligations.CrcComputeWritesTheCrcOfTheWord : Prop :=
  decode 0x00000001#32 = .ok .crcCompute ∧
  ∀ s : State, exec .crcCompute s = .next { s with block := { s.block with
    result := (crc8 (s.block.operand.extractLsb' 8 8) (s.block.operand.extractLsb' 0 8)).setWidth 32
    code := 1#4 } }

/-- R69: the CMD value of CRC_VALIDATE and its whole effect, in every state. -/
def Obligations.CrcValidateReportsTheComputedCrc : Prop :=
  decode 0x00000002#32 = .ok .crcValidate ∧
  ∀ s : State,
    let hi := s.block.operand.extractLsb' 16 8
    let lo := s.block.operand.extractLsb' 8 8
    let exp := s.block.operand.extractLsb' 0 8
    (crc8 hi lo = exp → exec .crcValidate s = .next { s with block := { s.block with
      result := (crc8 hi lo).setWidth 32, code := 1#4 } }) ∧
    (crc8 hi lo ≠ exp → exec .crcValidate s = .next { s with block := { s.block with
      result := (crc8 hi lo).setWidth 32, code := 2#4, errCrc := crc8 hi lo ++ exp, errPos := 0x00000000#32 } })

/-- Frame of the two engine commands: every register the host can read but STATUS, RESULT, ERR_CRC and ERR_POS is as
before, and so are STATUS.FATAL, both buffers whole and the port; ERR_CRC and ERR_POS change only on a mismatch. -/
def Obligations.EngineCommandsChangeOnlyTheirRegisters : Prop :=
  ∀ (i : Instr) (s t : State), i = .crcCompute ∨ i = .crcValidate → exec i s = .next t →
    (∀ r, r ≠ .status → r ≠ .result → r ≠ .errCrc → r ≠ .errPos → readReg t.block r = readReg s.block r) ∧
    (t.block.code ≠ 2#4 → t.block.errCrc = s.block.errCrc ∧ t.block.errPos = s.block.errPos) ∧
    (i = .crcCompute → t.block.errCrc = s.block.errCrc ∧ t.block.errPos = s.block.errPos) ∧
    t.block.fatal = s.block.fatal ∧ t.block.maxFrames = s.block.maxFrames ∧
    t.block.fbuf = s.block.fbuf ∧ t.block.wbuf = s.block.wbuf ∧
    t.pending = s.pending ∧ t.response = s.response ∧ t.epoch = s.epoch

/-! ### READ_WORDS and WRITE_WORDS -/

/-- R71: the three outcomes of `read_words`, each exactly when the rule says, the first mismatch only. -/
def Obligations.ReadWordsOfReportsTheFirstMismatch : Prop :=
  ∀ B : List Byte,
    let n := B.length
    ((n = 0 ∨ n % 3 ≠ 0) → readWordsOf B = .fatal n) ∧
    (n ≠ 0 → n % 3 = 0 →
      (∀ k, k < n / 3 → ¬ bytesValid B k → (∀ j, j < k → bytesValid B j) →
        readWordsOf B = .frameError k (B.getD (3 * k + 2) 0#8)
          (crc8 (B.getD (3 * k) 0#8) (B.getD (3 * k + 1) 0#8))) ∧
      ((∀ k, k < n / 3 → bytesValid B k) →
        readWordsOf B = .ok ((List.range (n / 3)).map
          fun k => joinWord (B.getD (3 * k) 0#8) (B.getD (3 * k + 1) 0#8))))

/-- R72: `write_words` gives three bytes for each word, its two big-endian bytes and their CRC, in input order. -/
def Obligations.WriteWordsOfEmitsAFrameForEachWord : Prop :=
  writeWordsOf [] = [] ∧
  ∀ W : List Word16, (writeWordsOf W).length = 3 * W.length ∧
    ∀ k, k < W.length →
      (writeWordsOf W).getD (3 * k) 0#8 = (W.getD k 0#16).extractLsb' 8 8 ∧
      (writeWordsOf W).getD (3 * k + 1) 0#8 = (W.getD k 0#16).extractLsb' 0 8 ∧
      (writeWordsOf W).getD (3 * k + 2) 0#8 =
        crc8 ((W.getD k 0#16).extractLsb' 8 8) ((W.getD k 0#16).extractLsb' 0 8)

/-- R74: READ_WORDS, on FBUF within the capacity, is `read_words` of R71 applied to FBUF[0 .. LEN.COUNT-1]; the whole
next state in each of its outcomes. -/
def Obligations.ReadWordsCarriesOutReadWordsOf : Prop :=
  decode 0x00000003#32 = .ok .readWords ∧
  ∀ s : State, Memory.wf s.block →
    let b := s.block
    let n := b.len.toNat
    ((n = 0 ∨ n % 3 ≠ 0) → exec .readWords s = .next { s with block := { b with
      fatal := true, code := 7#4, fatalLen := b.len } }) ∧
    (n ≠ 0 → n % 3 = 0 → 3 * b.maxFrames < n → exec .readWords s = .next { s with block := { b with
      code := 6#4 } }) ∧
    (n ≠ 0 → n % 3 = 0 → n ≤ 3 * b.maxFrames →
      match readWordsOf (b.fbuf.take n) with
      | .fatal _ => False
      | .frameError k expected computed => exec .readWords s = .next { s with block := { b with
          code := 3#4
          errCrc := computed ++ expected
          errPos := BitVec.ofNat 16 (3 * k) ++ BitVec.ofNat 16 k
          result := 0x00000000#32 } }
      | .ok W => W.length = n / 3 ∧ exec .readWords s = .next { s with block := { b with
          wbuf := W ++ b.wbuf.drop (n / 3)
          result := BitVec.ofNat 32 (n / 3)
          code := 1#4 } })

/-- R74, where READ_WORDS has its own effect: a legal length within the capacity and every frame valid. -/
def Obligations.ReadWordsCompletesOnValidFrames : Prop :=
  ∀ s : State, Memory.wf s.block →
    s.block.len.toNat ≠ 0 → s.block.len.toNat % 3 = 0 → s.block.len.toNat ≤ 3 * s.block.maxFrames →
    (∀ k, k < s.block.len.toNat / 3 → frameValid s.block k) →
    exec .readWords s = .next { s with block := { s.block with
      wbuf := (List.range (s.block.len.toNat / 3)).map (frameWord s.block) ++
        s.block.wbuf.drop (s.block.len.toNat / 3)
      result := BitVec.ofNat 32 (s.block.len.toNat / 3)
      code := 1#4 } }

/-- R76: WRITE_WORDS within the capacity is `write_words` of R72 applied to WBUF[0 .. LEN.COUNT-1]; above it, LEN_RANGE. -/
def Obligations.WriteWordsCarriesOutWriteWordsOf : Prop :=
  decode 0x00000004#32 = .ok .writeWords ∧
  ∀ s : State, Memory.wf s.block →
    let b := s.block
    let m := b.len.toNat
    (b.maxFrames < m → exec .writeWords s = .next { s with block := { b with code := 6#4 } }) ∧
    (m ≤ b.maxFrames → exec .writeWords s = .next { s with block := { b with
      fbuf := writeWordsOf (b.wbuf.take m) ++ b.fbuf.drop (3 * m)
      result := BitVec.ofNat 32 (3 * m)
      code := 1#4 } })

/-- R73, R75, R83: where a length beyond the capacity is LEN_RANGE, that it sets the code and nothing else, and that
for READ_WORDS the fatal precondition comes first. -/
def Obligations.LengthBeyondCapacitySetsOnlyTheCode : Prop :=
  ∀ s : State,
    (3 * s.block.maxFrames < s.block.len.toNat →
      (s.block.len.toNat ≠ 0 ∧ s.block.len.toNat % 3 = 0 →
        exec .readWords s = .next { s with block := { s.block with code := 6#4 } }) ∧
      (s.block.len.toNat % 3 ≠ 0 → exec .readWords s = .next { s with block := { s.block with
        fatal := true, code := 7#4, fatalLen := s.block.len } })) ∧
    (s.block.maxFrames < s.block.len.toNat →
      exec .writeWords s = .next { s with block := { s.block with code := 6#4 } })

/-- R84: the fatal entry writes STATUS.FATAL, STATUS.CODE and FATAL_LEN and nothing else, and no command enters the
halt but READ_WORDS with a length that is not a nonzero multiple of 3. -/
def Obligations.FatalEntryIsPreciseAndOnlyFromReadWords : Prop :=
  (∀ s : State, s.block.len.toNat = 0 ∨ s.block.len.toNat % 3 ≠ 0 →
    exec .readWords s = .next { s with block := { s.block with
      fatal := true, code := 7#4, fatalLen := s.block.len } }) ∧
  ∀ (i : Instr) (s t : State), exec i s = .next t → s.block.fatal = false → t.block.fatal = true →
    i = .readWords ∧ (s.block.len.toNat = 0 ∨ s.block.len.toNat % 3 ≠ 0)

/-- Frame of READ_WORDS: what the host reads anywhere but in the registers and WBUF entries the rule names. -/
def Obligations.ReadWordsChangesOnlyItsResults : Prop :=
  ∀ s t : State, exec .readWords s = .next t →
    t.block.operand = s.block.operand ∧ t.block.len = s.block.len ∧ t.block.fbuf = s.block.fbuf ∧
    t.block.maxFrames = s.block.maxFrames ∧
    (∀ r, r ≠ .status → r ≠ .result → r ≠ .errCrc → r ≠ .errPos → r ≠ .fatalLen → (∀ j, r ≠ .wbuf j) →
      readReg t.block r = readReg s.block r) ∧
    (∀ j, t.block.code ≠ 1#4 ∨ s.block.len.toNat / 3 ≤ j → readReg t.block (.wbuf j) = readReg s.block (.wbuf j)) ∧
    (t.block.code ≠ 3#4 → t.block.errCrc = s.block.errCrc ∧ t.block.errPos = s.block.errPos) ∧
    (t.block.code ≠ 1#4 → t.block.code ≠ 3#4 → t.block.result = s.block.result) ∧
    (s.block.len.toNat ≠ 0 → s.block.len.toNat % 3 = 0 →
      t.block.fatal = s.block.fatal ∧ t.block.fatalLen = s.block.fatalLen) ∧
    t.pending = s.pending ∧ t.response = s.response ∧ t.epoch = s.epoch

/-- Frame of WRITE_WORDS: what the host reads anywhere but in STATUS, RESULT and the FBUF entries below 3m. -/
def Obligations.WriteWordsChangesOnlyItsResults : Prop :=
  ∀ s t : State, exec .writeWords s = .next t →
    (∀ r, r ≠ .status → r ≠ .result → (∀ i, r ≠ .fbuf i) → readReg t.block r = readReg s.block r) ∧
    (∀ i, t.block.code ≠ 1#4 ∨ 3 * s.block.len.toNat ≤ i →
      readReg t.block (.fbuf i) = readReg s.block (.fbuf i)) ∧
    (t.block.code ≠ 1#4 → t.block.result = s.block.result) ∧
    t.block.fatal = s.block.fatal ∧ t.block.maxFrames = s.block.maxFrames ∧ t.block.wbuf = s.block.wbuf ∧
    t.pending = s.pending ∧ t.response = s.response ∧ t.epoch = s.epoch

/-- R77: encode m words, then decode them. For 1 ≤ m ≤ MAX_FRAMES the words come back; for m = 0 the read is fatal. -/
def Obligations.WriteThenReadGivesTheWordsBack : Prop :=
  ∀ (s : State) (m : Nat) (rest : List HostEvent),
    Memory.wf s.block → s.block.fatal = false → m ≤ s.block.maxFrames →
    s.pending = wr .len (BitVec.ofNat 32 m) :: wrCommand .writeWords ::
      wr .len (BitVec.ofNat 32 (3 * m)) :: wrCommand .readWords :: rest →
    ∃ t, run 4 s = .next t ∧ t.pending = rest ∧
      (1 ≤ m → t.block.code = 1#4 ∧ t.block.fatal = false ∧
        t.block.result = BitVec.ofNat 32 m ∧ t.block.wbuf = s.block.wbuf) ∧
      (m = 0 → t.block.fatal = true ∧ t.block.fatalLen = 0#16 ∧ t.block.wbuf = s.block.wbuf)

/-- R78: any change of any one byte of frame k in a buffer of valid frames is reported, at index k. -/
def Obligations.ChangedByteIsReportedAtItsFrame : Prop :=
  ∀ (s : State) (k i : Nat) (v : Byte),
    Memory.wf s.block → s.block.len.toNat % 3 = 0 → s.block.len.toNat ≤ 3 * s.block.maxFrames →
    (∀ j, j < s.block.len.toNat / 3 → frameValid s.block j) →
    k < s.block.len.toNat / 3 → i = 3 * k ∨ i = 3 * k + 1 ∨ i = 3 * k + 2 → v ≠ fbufAt s.block i →
    ∃ t, exec .readWords { s with block := { s.block with fbuf := s.block.fbuf.set i v } } = .next t ∧
      t.block.code = 3#4 ∧ (t.block.errPos.extractLsb' 0 16).toNat = k ∧
      (t.block.errPos.extractLsb' 16 16).toNat = 3 * k

/-- R79: STATUS.CODE alone tells success from failure; a failed READ_WORDS leaves WBUF and leaves RESULT or clears it;
and the frames before the reported one passed. -/
def Obligations.FailedReadWordsGivesNoPartialResult : Prop :=
  ∀ s t : State, exec .readWords s = .next t →
    (t.block.code = 1#4 ↔
      s.block.len.toNat ≠ 0 ∧ s.block.len.toNat % 3 = 0 ∧ s.block.len.toNat ≤ 3 * s.block.maxFrames ∧
        ∀ k, k < s.block.len.toNat / 3 → frameValid s.block k) ∧
    (t.block.code ≠ 1#4 →
      t.block.wbuf = s.block.wbuf ∧ (t.block.result = 0#32 ∨ t.block.result = s.block.result)) ∧
    (t.block.code = 3#4 → ∀ j, j < (t.block.errPos.extractLsb' 0 16).toNat → frameValid s.block j)

/-- R81: FRAME_MISMATCH at frame k is the engine's ChecksumError of that frame's bytes with the position added:
CRC_VALIDATE on the same three bytes gives CRC_MISMATCH, the same ERR_CRC, and position 0. -/
def Obligations.FrameMismatchWrapsTheChecksumError : Prop :=
  ∀ s t : State, exec .readWords s = .next t → t.block.code = 3#4 →
    ∃ k, k < s.block.len.toNat / 3 ∧
      t.block.errPos = BitVec.ofNat 16 (3 * k) ++ BitVec.ofNat 16 k ∧
      validate (fbufAt s.block (3 * k)) (fbufAt s.block (3 * k + 1)) (fbufAt s.block (3 * k + 2)) =
        .checksumError (t.block.errCrc.extractLsb' 0 8) (t.block.errCrc.extractLsb' 8 8) ∧
      ∀ u : State,
        u.block.operand = fbufAt s.block (3 * k) ++ fbufAt s.block (3 * k + 1) ++ fbufAt s.block (3 * k + 2) →
        ∃ v, exec .crcValidate u = .next v ∧
          v.block.code = 2#4 ∧ v.block.errCrc = t.block.errCrc ∧ v.block.errPos = 0#32

/-! ### The host port -/

/-- R35, R36: the register map, row by row, and that no access of another width is accepted. -/
def Obligations.RegisterMapIsTheTable : Prop :=
  ∀ (maxFrames : Nat) (off : Offset), 1 ≤ maxFrames → maxFrames ≤ 341 →
    reach maxFrames off .w8 = none ∧ reach maxFrames off .w16 = none ∧
    ∀ r : Reg, reach maxFrames off .w32 = some r ↔
      match r with
      | .id => off.toNat = 0x000
      | .config => off.toNat = 0x004
      | .capacity => off.toNat = 0x008
      | .cmd => off.toNat = 0x00C
      | .status => off.toNat = 0x010
      | .operand => off.toNat = 0x014
      | .len => off.toNat = 0x018
      | .result => off.toNat = 0x01C
      | .errCrc => off.toNat = 0x020
      | .errPos => off.toNat = 0x024
      | .fatalLen => off.toNat = 0x028
      | .fbuf i => i < 3 * maxFrames ∧ off.toNat = 0x1000 + 4 * i
      | .wbuf j => j < maxFrames ∧ off.toNat = 0x2000 + 4 * j

/-- R37: a refused access changes nothing of the block, halted or not, and a refused read gets data 0. That the
refusal is a next state with the answer recorded is the model's form (log entry 2), and so is the one signal
`Config.busErrorSignal` for every refusal (log entry 3). -/
def Obligations.RefusedAccessChangesNothing : Prop :=
  ∀ (s : State) (rest : List HostEvent) (off : Offset) (width : Width) (v : Word32),
    reach s.block.maxFrames off width = none →
    (s.pending = .access (.read off width) :: rest →
      step s = .next { s with
        pending := rest, response := some (.refusedRead 0x00000000#32 Config.busErrorSignal) }) ∧
    (s.pending = .access (.write off width v) :: rest →
      step s = .next { s with pending := rest, response := some (.refusedWrite Config.busErrorSignal) })

/-- R38: an accepted read returns the register, with its reserved bits 0, and changes nothing of the block; the same
in a halted block. -/
def Obligations.HostReadReturnsTheRegister : Prop :=
  (∀ (s : State) (rest : List HostEvent) (off : Offset) (width : Width) (r : Reg),
    reach s.block.maxFrames off width = some r → s.pending = .access (.read off width) :: rest →
    step s = .next { s with pending := rest, response := some (.readData (readReg s.block r)) }) ∧
  ∀ b : Block,
    readReg b .id = 0x43524338#32 ∧ readReg b .config = 0x0000FF31#32 ∧
    (Memory.wf b → (readReg b .capacity).toNat = b.maxFrames) ∧
    readReg b .cmd = 0x00000000#32 ∧
    (readReg b .status).toNat = b.code.toNat + 16 * b.fatal.toNat ∧
    (readReg b .operand).toNat = b.operand.toNat ∧
    (readReg b .len).toNat = b.len.toNat ∧
    readReg b .result = b.result ∧
    (readReg b .errCrc).toNat = b.errCrc.toNat ∧
    readReg b .errPos = b.errPos ∧
    (readReg b .fatalLen).toNat = b.fatalLen.toNat ∧
    (∀ i, (readReg b (.fbuf i)).toNat = (b.fbuf.getD i 0#8).toNat) ∧
    (∀ j, (readReg b (.wbuf j)).toNat = (b.wbuf.getD j 0#16).toNat)

/-- R18, R19, R20: the hardwired registers, at their offsets, in every block, and that no step changes MAX_FRAMES. -/
def Obligations.HardwiredRegistersNeverChange : Prop :=
  (∀ m, reach m 0x000#14 .w32 = some .id ∧ reach m 0x004#14 .w32 = some .config ∧
    reach m 0x008#14 .w32 = some .capacity) ∧
  (∀ b : Block, readReg b .id = 0x43524338#32 ∧ readReg b .config = 0x0000FF31#32 ∧
    (readReg b .config).extractLsb' 0 8 = 0x31#8 ∧ (readReg b .config).extractLsb' 8 8 = 0xFF#8 ∧
    (readReg b .config).extractLsb' 16 8 = 0x00#8 ∧ (readReg b .config).extractLsb' 24 8 = 0x00#8 ∧
    (Memory.wf b → (readReg b .capacity).toNat = b.maxFrames)) ∧
  (readReg State.reset.block .capacity).toNat = Config.maxFrames ∧
  (1 ≤ Config.maxFrames ∧ Config.maxFrames ≤ 341) ∧
  ∀ s t : State, step s = .next t → t.block.maxFrames = s.block.maxFrames

/-- R39: what an accepted write to each register does in a block that is not halted, and in a halted one. -/
def Obligations.HostWriteStoresWithinTheField : Prop :=
  ∀ (s : State) (rest : List HostEvent) (v : Word32),
    (∀ off : Offset, reach s.block.maxFrames off .w32 ≠ none → s.block.fatal = true →
      s.pending = .access (.write off .w32 v) :: rest →
      step s = .next { s with pending := rest, response := some .writeAccepted }) ∧
    (s.block.fatal = false →
      (s.pending = .access (.write 0x00C#14 .w32 v) :: rest →
        (∀ i, decode v = .ok i → step s = exec i { s with pending := rest, response := some .writeAccepted }) ∧
        ((∀ i, decode v ≠ .ok i) → step s = .next { s with
          block := { s.block with code := 5#4 }, pending := rest, response := some .writeAccepted })) ∧
      (s.pending = .access (.write 0x014#14 .w32 v) :: rest → step s = .next { s with
        block := { s.block with operand := v.extractLsb' 0 24 }
        pending := rest, response := some .writeAccepted }) ∧
      (s.pending = .access (.write 0x018#14 .w32 v) :: rest → step s = .next { s with
        block := { s.block with len := v.extractLsb' 0 16 }
        pending := rest, response := some .writeAccepted }) ∧
      (∀ i, s.block.maxFrames ≤ 341 → i < 3 * s.block.maxFrames →
        s.pending = .access (.write (BitVec.ofNat 14 (0x1000 + 4 * i)) .w32 v) :: rest → step s = .next { s with
          block := { s.block with fbuf := s.block.fbuf.set i (v.extractLsb' 0 8) }
          pending := rest, response := some .writeAccepted }) ∧
      (∀ j, s.block.maxFrames ≤ 341 → j < s.block.maxFrames →
        s.pending = .access (.write (BitVec.ofNat 14 (0x2000 + 4 * j)) .w32 v) :: rest → step s = .next { s with
          block := { s.block with wbuf := s.block.wbuf.set j (v.extractLsb' 0 16) }
          pending := rest, response := some .writeAccepted }) ∧
      (∀ off : Offset,
        off ∈ [0x000#14, 0x004#14, 0x008#14, 0x010#14, 0x01C#14, 0x020#14, 0x024#14, 0x028#14] →
        s.pending = .access (.write off .w32 v) :: rest →
        step s = .next { s with pending := rest, response := some .writeAccepted }))

/-- R15, R24, R25, R30, R31: a written field reads back what was written, within its width, and `writeReg` of any
register but CMD leaves the reading of every other register. A write to CMD never reaches `writeReg`: it runs a command,
which writes other registers (R39, R44). -/
def Obligations.WrittenFieldsReadBackTruncated : Prop :=
  ∀ (b : Block) (v : Word32), Memory.wf b →
    readReg (writeReg b .operand v) .operand = v &&& 0x00FFFFFF#32 ∧
    readReg (writeReg b .len v) .len = v &&& 0x0000FFFF#32 ∧
    (∀ i, i < 3 * b.maxFrames → readReg (writeReg b (.fbuf i) v) (.fbuf i) = v &&& 0x000000FF#32) ∧
    (∀ j, j < b.maxFrames → readReg (writeReg b (.wbuf j) v) (.wbuf j) = v &&& 0x0000FFFF#32) ∧
    ∀ r q : Reg, r ≠ .cmd → r ≠ q → readReg (writeReg b r v) q = readReg b q

/-- R45, R47, R97, R100: every access and every reset is finished in its own step; nothing stops the machine, and the
port never holds a half-done transfer. With nothing pending the block waits. Three clauses rest on the model's choices:
that a refused access answers next (log entry 2), that a reset is an event served in its turn (log entry 9), and that an
idle step leaves the state as it is (log entry 13). -/
def Obligations.EveryAccessCompletesInOneStep : Prop :=
  (∀ (s : State) (e : HostEvent) (rest : List HostEvent), s.pending = e :: rest →
    ∃ t, step s = .next t ∧ t.pending = rest) ∧
  (∀ s : State, s.pending = [] → step s = .next s) ∧
  ∀ (n : Nat) (s : State), ∃ t, run n s = .next t ∧ t.pending = s.pending.drop n

/-- R87: the checks on a host write, in the rule's order; the first that applies decides. That a refused write is a
next state recording `refusedWrite` (log entry 2) with the one signal `Config.busErrorSignal` (log entry 3) is the
model's choice. -/
def Obligations.FirstApplicableCheckDecides : Prop :=
  ∀ (s : State) (off : Offset) (width : Width) (v : Word32) (rest : List HostEvent),
    s.pending = .access (.write off width v) :: rest →
    let taken : State := { s with pending := rest, response := some .writeAccepted }
    let n := s.block.len.toNat
    (reach s.block.maxFrames off width = none →
      step s = .next { s with pending := rest, response := some (.refusedWrite Config.busErrorSignal) }) ∧
    (reach s.block.maxFrames off width ≠ none → s.block.fatal = true → step s = .next taken) ∧
    (reach s.block.maxFrames off width = some .cmd → s.block.fatal = false →
      ((∀ i, decode v ≠ .ok i) →
        step s = .next { taken with block := { s.block with code := 5#4 } }) ∧
      (v = 0x3#32 → n = 0 ∨ n % 3 ≠ 0 →
        step s = .next { taken with block := { s.block with fatal := true, code := 7#4, fatalLen := s.block.len } }) ∧
      (v = 0x3#32 → n ≠ 0 → n % 3 = 0 → 3 * s.block.maxFrames < n →
        step s = .next { taken with block := { s.block with code := 6#4 } }) ∧
      (v = 0x4#32 → s.block.maxFrames < n →
        step s = .next { taken with block := { s.block with code := 6#4 } }) ∧
      (v = 0x3#32 → n % 3 = 0 → n ≤ 3 * s.block.maxFrames →
        ∀ k, k < n / 3 → ¬ frameValid s.block k → (∀ j, j < k → frameValid s.block j) →
        step s = .next { taken with block := { s.block with
          code := 3#4
          errCrc := crc8 (fbufAt s.block (3 * k)) (fbufAt s.block (3 * k + 1)) ++ fbufAt s.block (3 * k + 2)
          errPos := BitVec.ofNat 16 (3 * k) ++ BitVec.ofNat 16 k
          result := 0#32 } }))

/-- R44: repeating any access at once leaves the block as the first left it; a read leaves it as it was. That the run
goes on through a refused access is the model's choice (log entry 2), and that two refused reads have equal answers
rests on its one `Config.busErrorSignal` (log entry 3); for accepted reads the equal answers are R38's and R44's. -/
def Obligations.RepeatingAnAccessChangesNothingMore : Prop :=
  ∀ (s : State) (a : Access) (rest : List HostEvent),
    s.pending = .access a :: .access a :: rest →
    ∃ t u, run 1 s = .next t ∧ run 2 s = .next u ∧ u.block = t.block ∧
      ((∃ off width, a = .read off width) → t.block = s.block ∧ u.response = t.response)

/-- R16: who writes which register. A change of OPERAND or LEN comes from a host write to it, a change of RESULT,
STATUS, ERR_CRC, ERR_POS or FATAL_LEN from a CMD write, and a change of a buffer from a host write to that buffer or
from the command that writes it; or the step was a reset. A host write to a buffer is one that reaches an entry the
buffer has, and it changes that entry alone. -/
def Obligations.EachRegisterHasItsWriters : Prop :=
  ∀ (s t : State) (e : HostEvent) (rest : List HostEvent),
    s.pending = e :: rest → e.isAccess = true → step s = .next t →
    (t.block.operand ≠ s.block.operand → ∃ v, e = wr .operand v) ∧
    (t.block.len ≠ s.block.len → ∃ v, e = wr .len v) ∧
    (t.block.result ≠ s.block.result ∨ t.block.code ≠ s.block.code ∨ t.block.fatal ≠ s.block.fatal ∨
      t.block.errCrc ≠ s.block.errCrc ∨ t.block.errPos ≠ s.block.errPos ∨ t.block.fatalLen ≠ s.block.fatalLen →
      ∃ v, e = wr .cmd v) ∧
    (t.block.fbuf ≠ s.block.fbuf → e = wrCommand .writeWords ∨
      ∃ off v i, e = .access (.write off .w32 v) ∧ reach s.block.maxFrames off .w32 = some (.fbuf i) ∧
        i < 3 * s.block.maxFrames ∧ t.block.fbuf = s.block.fbuf.set i (v.extractLsb' 0 8)) ∧
    (t.block.wbuf ≠ s.block.wbuf → e = wrCommand .readWords ∨
      ∃ off v j, e = .access (.write off .w32 v) ∧ reach s.block.maxFrames off .w32 = some (.wbuf j) ∧
        j < s.block.maxFrames ∧ t.block.wbuf = s.block.wbuf.set j (v.extractLsb' 0 16))

/-- R22: STATUS's layout and reset value; only commands write CODE, only the fatal entry writes FATAL, and only a
reset clears it. -/
def Obligations.StatusIsWrittenByCommandsAndClearedByReset : Prop :=
  (∀ b : Block, (readReg b .status).extractLsb' 0 4 = b.code ∧
    (readReg b .status).getLsbD 4 = b.fatal ∧ (readReg b .status).extractLsb' 5 27 = 0#27) ∧
  readReg State.reset.block .status = 0x00000000#32 ∧
  (∀ (i : Instr) (s t : State), exec i s = .next t → s.block.fatal = true → t.block.fatal = true) ∧
  ∀ (s t : State) (e : HostEvent) (rest : List HostEvent), s.pending = e :: rest → step s = .next t →
    (e.isAccess = true → t.block.code ≠ s.block.code → s.block.fatal = false ∧ ∃ v, e = wr .cmd v) ∧
    (s.block.fatal = false → t.block.fatal = true →
      e = wrCommand .readWords ∧ (s.block.len.toNat = 0 ∨ s.block.len.toNat % 3 ≠ 0)) ∧
    (s.block.fatal = true → t.block.fatal = false → e.isAccess = false)

/-- R27, R28, R29: the error-information registers change only with the outcome they describe (or by a reset). -/
def Obligations.ErrorRegistersChangeOnlyWithTheirError : Prop :=
  ∀ (s t : State) (e : HostEvent) (rest : List HostEvent),
    s.pending = e :: rest → e.isAccess = true → step s = .next t →
    (t.block.errCrc ≠ s.block.errCrc → t.block.code = 2#4 ∨ t.block.code = 3#4) ∧
    (t.block.errPos ≠ s.block.errPos → t.block.code = 2#4 ∨ t.block.code = 3#4) ∧
    (t.block.fatalLen ≠ s.block.fatalLen →
      s.block.fatal = false ∧ t.block.fatal = true ∧ t.block.fatalLen = s.block.len)

/-- R32: a buffer entry keeps its value until it is written, by the host, by the command that writes its buffer (below
the command's length), or until a reset. -/
def Obligations.BufferEntriesStayUntilWritten : Prop :=
  ∀ (s t : State) (e : HostEvent) (rest : List HostEvent), Memory.wf s.block →
    s.pending = e :: rest → e.isAccess = true → step s = .next t →
    (∀ i, (∀ v, e ≠ wr (.fbuf i) v) → (e ≠ wrCommand .writeWords ∨ 3 * s.block.len.toNat ≤ i) →
      readReg t.block (.fbuf i) = readReg s.block (.fbuf i)) ∧
    (∀ j, (∀ v, e ≠ wr (.wbuf j) v) → (e ≠ wrCommand .readWords ∨ s.block.len.toNat / 3 ≤ j) →
      readReg t.block (.wbuf j) = readReg s.block (.wbuf j))

/-- R85: the halted block. Every access is answered as the rule says and none changes the block, one access or many,
so the halt lasts until a reset. That a refused access is a next state recording its refusal (log entry 2), with the one
signal `Config.busErrorSignal` (log entry 3), is the model's choice. -/
def Obligations.HaltLastsUntilReset : Prop :=
  (∀ (s : State) (rest : List HostEvent) (off : Offset) (width : Width) (v : Word32), s.block.fatal = true →
    (s.pending = .access (.write off width v) :: rest →
      step s = .next { s with
        pending := rest
        response := match reach s.block.maxFrames off width with
          | some _ => some .writeAccepted
          | none => some (.refusedWrite Config.busErrorSignal) }) ∧
    (s.pending = .access (.read off width) :: rest →
      step s = .next { s with
        pending := rest
        response := match reach s.block.maxFrames off width with
          | some r => some (.readData (readReg s.block r))
          | none => some (.refusedRead 0#32 Config.busErrorSignal) })) ∧
  ∀ (n : Nat) (s : State), s.block.fatal = true → (∀ e ∈ s.pending.take n, e.isAccess = true) →
    ∃ t, run n s = .next t ∧ t.block = s.block

/-- R47: another master's reads, wherever the interconnect puts them among the first master's accesses, leave the
block as the first master's accesses alone leave it. That several masters are one list of events, in any order, is the
model's choice (log entry 11). -/
def Obligations.ReadsOfAnotherMasterDoNotInterfere : Prop :=
  ∀ (s : State) (xs ys zs : List HostEvent), Interleaving xs ys zs → (∀ e ∈ ys, e.isRead = true) →
    ∃ t u, run zs.length { s with pending := zs } = .next t ∧ run xs.length { s with pending := xs } = .next u ∧
      t.block = u.block ∧ t.epoch = u.epoch ∧ t.pending = [] ∧ u.pending = []

/-- R35: the block sees an offset for exactly the platform addresses of its window. (BASE_ADDR is open, log entry 6.) -/
def Obligations.WindowAddressesReachTheirOffset : Prop :=
  (∀ off : Offset, windowOffset (platformAddress off) = some off) ∧
  ∀ addr : Nat, windowOffset addr = none ↔
    addr < Config.baseAddr ∨ Config.baseAddr + 0x4000 ≤ addr

/-- R60: COMPUTE, VALIDATE and LOADF do, as their expansions run, what their names say. -/
def Obligations.PseudoOperationsRunTheirExpansion : Prop :=
  (∀ (s : State) (w : Word16) (rest : List HostEvent), s.block.fatal = false →
    s.pending = expand (.compute w) ++ rest →
    ∃ t, run 3 s = .next t ∧ t.pending = rest ∧
      t.response = some (.readData ((crcWord w).setWidth 32)) ∧ t.block.code = 1#4) ∧
  (∀ (s : State) (b0 b1 b2 : Byte) (rest : List HostEvent), s.block.fatal = false →
    s.pending = expand (.validate b0 b1 b2) ++ rest →
    ∃ t, run 3 s = .next t ∧ t.pending = rest ∧
      t.response = some (.readData (if crc8 b0 b1 = b2 then 0x00000001#32 else 0x00000002#32))) ∧
  ∀ (s : State) (i : Nat) (bytes : List Byte) (rest : List HostEvent), Memory.wf s.block → s.block.fatal = false →
    i + bytes.length ≤ 3 * s.block.maxFrames → s.pending = expand (.loadF i bytes) ++ rest →
    ∃ t, run bytes.length s = .next t ∧ t.pending = rest ∧
      t.block = { s.block with fbuf := s.block.fbuf.take i ++ bytes ++ s.block.fbuf.drop (i + bytes.length) }

/-! ### Reset and the invariant -/

/-- R97: what reset leaves, from power-on and from any state; no register keeps a value, MAX_FRAMES is the build's,
which CAPACITY reads, each buffer entry holds some one value, and the block then waits. The model's choices in it: what
the entries hold is open (log entry 4), a reset is an event, alone or during a command (R98, log entry 9), and waiting
is a step that leaves the state as it is (log entry 13). -/
def Obligations.ResetLeavesTheStatedValues : Prop :=
  let stated := fun (b : Block) =>
    readReg b .id = 0x43524338#32 ∧ readReg b .config = 0x0000FF31#32 ∧ readReg b .cmd = 0#32 ∧
    readReg b .status = 0#32 ∧ readReg b .operand = 0#32 ∧ readReg b .len = 0#32 ∧ readReg b .result = 0#32 ∧
    readReg b .errCrc = 0#32 ∧ readReg b .errPos = 0#32 ∧ readReg b .fatalLen = 0#32 ∧
    (b.maxFrames ≤ 341 → (readReg b .capacity).toNat = b.maxFrames) ∧
    b.fbuf.length = 3 * b.maxFrames ∧ b.wbuf.length = b.maxFrames
  stated State.reset.block ∧ State.reset.block.maxFrames = Config.maxFrames ∧
  step State.reset = .next State.reset ∧
  (∀ (s : State) (e : HostEvent) (rest : List HostEvent), s.pending = e :: rest → e.isAccess = false →
    ∃ t, step s = .next t ∧ stated t.block ∧ t.block.maxFrames = s.block.maxFrames) ∧
  ∀ (s t : State) (e : HostEvent) (rest : List HostEvent), s.pending = e :: rest → step s = .next t →
    s.block.fatal = true → t.block.fatal = false → e.isAccess = false

/-- R98, as the model has it: a reset during a command leaves the same state of the block as a reset alone, whatever
the command was, with the draws of a new reset in both buffers (log entries 4 and 9). -/
def Obligations.ResetDuringACommandAbandonsIt : Prop :=
  ∀ (s : State) (v : Word32) (rest : List HostEvent),
    s.pending = .resetDuringCommand v :: rest →
    ∃ t u, step s = .next t ∧ step { s with pending := .reset :: rest } = .next u ∧
      t.block = u.block ∧ t.epoch = u.epoch ∧ t.epoch ≠ s.epoch ∧
      (∀ i, i < 3 * s.block.maxFrames → fbufAt t.block i = Config.resetFbuf t.epoch i) ∧
      (∀ j, j < s.block.maxFrames → wbufAt t.block j = Config.resetWbuf t.epoch j)

/-- The invariant `Block.Inv` (its fields cite R8, R22, R23, R26 to R31, R69, R74, R84) holds after reset. -/
def Obligations.InvariantHoldsAfterReset : Prop := State.reset.block.Inv

/-- Every step, of every event from every state that meets it, keeps `Block.Inv`: CODE stays a value the block
produces, the halt and PRECONDITION go together, FATAL_LEN, ERR_POS, ERR_CRC and RESULT stay within what their rules
allow, and the buffers keep their sizes. -/
def Obligations.EveryStepKeepsTheInvariant : Prop :=
  ∀ s t : State, s.block.Inv → step s = .next t → t.block.Inv
end

