-- ==== Sys2Proof/Laws/State.lean ====
section
/-! SUPPORT. What each field update leaves of each field of the block and of the state. -/

namespace Sys2Proof.Machine

@[simp] theorem Block.setCode_maxFrames (b : Block) (v : BitVec 4) : (b.setCode v).maxFrames = b.maxFrames := rfl
@[simp] theorem Block.setCode_code (b : Block) (v : BitVec 4) : (b.setCode v).code = v := rfl
@[simp] theorem Block.setCode_fatal (b : Block) (v : BitVec 4) : (b.setCode v).fatal = b.fatal := rfl
@[simp] theorem Block.setCode_operand (b : Block) (v : BitVec 4) : (b.setCode v).operand = b.operand := rfl
@[simp] theorem Block.setCode_len (b : Block) (v : BitVec 4) : (b.setCode v).len = b.len := rfl
@[simp] theorem Block.setCode_result (b : Block) (v : BitVec 4) : (b.setCode v).result = b.result := rfl
@[simp] theorem Block.setCode_errCrc (b : Block) (v : BitVec 4) : (b.setCode v).errCrc = b.errCrc := rfl
@[simp] theorem Block.setCode_errPos (b : Block) (v : BitVec 4) : (b.setCode v).errPos = b.errPos := rfl
@[simp] theorem Block.setCode_fatalLen (b : Block) (v : BitVec 4) : (b.setCode v).fatalLen = b.fatalLen := rfl
@[simp] theorem Block.setCode_fbuf (b : Block) (v : BitVec 4) : (b.setCode v).fbuf = b.fbuf := rfl
@[simp] theorem Block.setCode_wbuf (b : Block) (v : BitVec 4) : (b.setCode v).wbuf = b.wbuf := rfl

@[simp] theorem Block.setFatal_maxFrames (b : Block) (v : Bool) : (b.setFatal v).maxFrames = b.maxFrames := rfl
@[simp] theorem Block.setFatal_code (b : Block) (v : Bool) : (b.setFatal v).code = b.code := rfl
@[simp] theorem Block.setFatal_fatal (b : Block) (v : Bool) : (b.setFatal v).fatal = v := rfl
@[simp] theorem Block.setFatal_operand (b : Block) (v : Bool) : (b.setFatal v).operand = b.operand := rfl
@[simp] theorem Block.setFatal_len (b : Block) (v : Bool) : (b.setFatal v).len = b.len := rfl
@[simp] theorem Block.setFatal_result (b : Block) (v : Bool) : (b.setFatal v).result = b.result := rfl
@[simp] theorem Block.setFatal_errCrc (b : Block) (v : Bool) : (b.setFatal v).errCrc = b.errCrc := rfl
@[simp] theorem Block.setFatal_errPos (b : Block) (v : Bool) : (b.setFatal v).errPos = b.errPos := rfl
@[simp] theorem Block.setFatal_fatalLen (b : Block) (v : Bool) : (b.setFatal v).fatalLen = b.fatalLen := rfl
@[simp] theorem Block.setFatal_fbuf (b : Block) (v : Bool) : (b.setFatal v).fbuf = b.fbuf := rfl
@[simp] theorem Block.setFatal_wbuf (b : Block) (v : Bool) : (b.setFatal v).wbuf = b.wbuf := rfl

@[simp] theorem Block.setOperand_maxFrames (b : Block) (v : BitVec 24) : (b.setOperand v).maxFrames = b.maxFrames := rfl
@[simp] theorem Block.setOperand_code (b : Block) (v : BitVec 24) : (b.setOperand v).code = b.code := rfl
@[simp] theorem Block.setOperand_fatal (b : Block) (v : BitVec 24) : (b.setOperand v).fatal = b.fatal := rfl
@[simp] theorem Block.setOperand_operand (b : Block) (v : BitVec 24) : (b.setOperand v).operand = v := rfl
@[simp] theorem Block.setOperand_len (b : Block) (v : BitVec 24) : (b.setOperand v).len = b.len := rfl
@[simp] theorem Block.setOperand_result (b : Block) (v : BitVec 24) : (b.setOperand v).result = b.result := rfl
@[simp] theorem Block.setOperand_errCrc (b : Block) (v : BitVec 24) : (b.setOperand v).errCrc = b.errCrc := rfl
@[simp] theorem Block.setOperand_errPos (b : Block) (v : BitVec 24) : (b.setOperand v).errPos = b.errPos := rfl
@[simp] theorem Block.setOperand_fatalLen (b : Block) (v : BitVec 24) : (b.setOperand v).fatalLen = b.fatalLen := rfl
@[simp] theorem Block.setOperand_fbuf (b : Block) (v : BitVec 24) : (b.setOperand v).fbuf = b.fbuf := rfl
@[simp] theorem Block.setOperand_wbuf (b : Block) (v : BitVec 24) : (b.setOperand v).wbuf = b.wbuf := rfl

@[simp] theorem Block.setLen_maxFrames (b : Block) (v : Word16) : (b.setLen v).maxFrames = b.maxFrames := rfl
@[simp] theorem Block.setLen_code (b : Block) (v : Word16) : (b.setLen v).code = b.code := rfl
@[simp] theorem Block.setLen_fatal (b : Block) (v : Word16) : (b.setLen v).fatal = b.fatal := rfl
@[simp] theorem Block.setLen_operand (b : Block) (v : Word16) : (b.setLen v).operand = b.operand := rfl
@[simp] theorem Block.setLen_len (b : Block) (v : Word16) : (b.setLen v).len = v := rfl
@[simp] theorem Block.setLen_result (b : Block) (v : Word16) : (b.setLen v).result = b.result := rfl
@[simp] theorem Block.setLen_errCrc (b : Block) (v : Word16) : (b.setLen v).errCrc = b.errCrc := rfl
@[simp] theorem Block.setLen_errPos (b : Block) (v : Word16) : (b.setLen v).errPos = b.errPos := rfl
@[simp] theorem Block.setLen_fatalLen (b : Block) (v : Word16) : (b.setLen v).fatalLen = b.fatalLen := rfl
@[simp] theorem Block.setLen_fbuf (b : Block) (v : Word16) : (b.setLen v).fbuf = b.fbuf := rfl
@[simp] theorem Block.setLen_wbuf (b : Block) (v : Word16) : (b.setLen v).wbuf = b.wbuf := rfl

@[simp] theorem Block.setResult_maxFrames (b : Block) (v : Word32) : (b.setResult v).maxFrames = b.maxFrames := rfl
@[simp] theorem Block.setResult_code (b : Block) (v : Word32) : (b.setResult v).code = b.code := rfl
@[simp] theorem Block.setResult_fatal (b : Block) (v : Word32) : (b.setResult v).fatal = b.fatal := rfl
@[simp] theorem Block.setResult_operand (b : Block) (v : Word32) : (b.setResult v).operand = b.operand := rfl
@[simp] theorem Block.setResult_len (b : Block) (v : Word32) : (b.setResult v).len = b.len := rfl
@[simp] theorem Block.setResult_result (b : Block) (v : Word32) : (b.setResult v).result = v := rfl
@[simp] theorem Block.setResult_errCrc (b : Block) (v : Word32) : (b.setResult v).errCrc = b.errCrc := rfl
@[simp] theorem Block.setResult_errPos (b : Block) (v : Word32) : (b.setResult v).errPos = b.errPos := rfl
@[simp] theorem Block.setResult_fatalLen (b : Block) (v : Word32) : (b.setResult v).fatalLen = b.fatalLen := rfl
@[simp] theorem Block.setResult_fbuf (b : Block) (v : Word32) : (b.setResult v).fbuf = b.fbuf := rfl
@[simp] theorem Block.setResult_wbuf (b : Block) (v : Word32) : (b.setResult v).wbuf = b.wbuf := rfl

@[simp] theorem Block.setErrCrc_maxFrames (b : Block) (v : BitVec 16) : (b.setErrCrc v).maxFrames = b.maxFrames := rfl
@[simp] theorem Block.setErrCrc_code (b : Block) (v : BitVec 16) : (b.setErrCrc v).code = b.code := rfl
@[simp] theorem Block.setErrCrc_fatal (b : Block) (v : BitVec 16) : (b.setErrCrc v).fatal = b.fatal := rfl
@[simp] theorem Block.setErrCrc_operand (b : Block) (v : BitVec 16) : (b.setErrCrc v).operand = b.operand := rfl
@[simp] theorem Block.setErrCrc_len (b : Block) (v : BitVec 16) : (b.setErrCrc v).len = b.len := rfl
@[simp] theorem Block.setErrCrc_result (b : Block) (v : BitVec 16) : (b.setErrCrc v).result = b.result := rfl
@[simp] theorem Block.setErrCrc_errCrc (b : Block) (v : BitVec 16) : (b.setErrCrc v).errCrc = v := rfl
@[simp] theorem Block.setErrCrc_errPos (b : Block) (v : BitVec 16) : (b.setErrCrc v).errPos = b.errPos := rfl
@[simp] theorem Block.setErrCrc_fatalLen (b : Block) (v : BitVec 16) : (b.setErrCrc v).fatalLen = b.fatalLen := rfl
@[simp] theorem Block.setErrCrc_fbuf (b : Block) (v : BitVec 16) : (b.setErrCrc v).fbuf = b.fbuf := rfl
@[simp] theorem Block.setErrCrc_wbuf (b : Block) (v : BitVec 16) : (b.setErrCrc v).wbuf = b.wbuf := rfl

@[simp] theorem Block.setErrPos_maxFrames (b : Block) (v : Word32) : (b.setErrPos v).maxFrames = b.maxFrames := rfl
@[simp] theorem Block.setErrPos_code (b : Block) (v : Word32) : (b.setErrPos v).code = b.code := rfl
@[simp] theorem Block.setErrPos_fatal (b : Block) (v : Word32) : (b.setErrPos v).fatal = b.fatal := rfl
@[simp] theorem Block.setErrPos_operand (b : Block) (v : Word32) : (b.setErrPos v).operand = b.operand := rfl
@[simp] theorem Block.setErrPos_len (b : Block) (v : Word32) : (b.setErrPos v).len = b.len := rfl
@[simp] theorem Block.setErrPos_result (b : Block) (v : Word32) : (b.setErrPos v).result = b.result := rfl
@[simp] theorem Block.setErrPos_errCrc (b : Block) (v : Word32) : (b.setErrPos v).errCrc = b.errCrc := rfl
@[simp] theorem Block.setErrPos_errPos (b : Block) (v : Word32) : (b.setErrPos v).errPos = v := rfl
@[simp] theorem Block.setErrPos_fatalLen (b : Block) (v : Word32) : (b.setErrPos v).fatalLen = b.fatalLen := rfl
@[simp] theorem Block.setErrPos_fbuf (b : Block) (v : Word32) : (b.setErrPos v).fbuf = b.fbuf := rfl
@[simp] theorem Block.setErrPos_wbuf (b : Block) (v : Word32) : (b.setErrPos v).wbuf = b.wbuf := rfl

@[simp] theorem Block.setFatalLen_maxFrames (b : Block) (v : Word16) : (b.setFatalLen v).maxFrames = b.maxFrames := rfl
@[simp] theorem Block.setFatalLen_code (b : Block) (v : Word16) : (b.setFatalLen v).code = b.code := rfl
@[simp] theorem Block.setFatalLen_fatal (b : Block) (v : Word16) : (b.setFatalLen v).fatal = b.fatal := rfl
@[simp] theorem Block.setFatalLen_operand (b : Block) (v : Word16) : (b.setFatalLen v).operand = b.operand := rfl
@[simp] theorem Block.setFatalLen_len (b : Block) (v : Word16) : (b.setFatalLen v).len = b.len := rfl
@[simp] theorem Block.setFatalLen_result (b : Block) (v : Word16) : (b.setFatalLen v).result = b.result := rfl
@[simp] theorem Block.setFatalLen_errCrc (b : Block) (v : Word16) : (b.setFatalLen v).errCrc = b.errCrc := rfl
@[simp] theorem Block.setFatalLen_errPos (b : Block) (v : Word16) : (b.setFatalLen v).errPos = b.errPos := rfl
@[simp] theorem Block.setFatalLen_fatalLen (b : Block) (v : Word16) : (b.setFatalLen v).fatalLen = v := rfl
@[simp] theorem Block.setFatalLen_fbuf (b : Block) (v : Word16) : (b.setFatalLen v).fbuf = b.fbuf := rfl
@[simp] theorem Block.setFatalLen_wbuf (b : Block) (v : Word16) : (b.setFatalLen v).wbuf = b.wbuf := rfl

@[simp] theorem Block.setFbuf_maxFrames (b : Block) (v : List Byte) : (b.setFbuf v).maxFrames = b.maxFrames := rfl
@[simp] theorem Block.setFbuf_code (b : Block) (v : List Byte) : (b.setFbuf v).code = b.code := rfl
@[simp] theorem Block.setFbuf_fatal (b : Block) (v : List Byte) : (b.setFbuf v).fatal = b.fatal := rfl
@[simp] theorem Block.setFbuf_operand (b : Block) (v : List Byte) : (b.setFbuf v).operand = b.operand := rfl
@[simp] theorem Block.setFbuf_len (b : Block) (v : List Byte) : (b.setFbuf v).len = b.len := rfl
@[simp] theorem Block.setFbuf_result (b : Block) (v : List Byte) : (b.setFbuf v).result = b.result := rfl
@[simp] theorem Block.setFbuf_errCrc (b : Block) (v : List Byte) : (b.setFbuf v).errCrc = b.errCrc := rfl
@[simp] theorem Block.setFbuf_errPos (b : Block) (v : List Byte) : (b.setFbuf v).errPos = b.errPos := rfl
@[simp] theorem Block.setFbuf_fatalLen (b : Block) (v : List Byte) : (b.setFbuf v).fatalLen = b.fatalLen := rfl
@[simp] theorem Block.setFbuf_fbuf (b : Block) (v : List Byte) : (b.setFbuf v).fbuf = v := rfl
@[simp] theorem Block.setFbuf_wbuf (b : Block) (v : List Byte) : (b.setFbuf v).wbuf = b.wbuf := rfl

@[simp] theorem Block.setWbuf_maxFrames (b : Block) (v : List Word16) : (b.setWbuf v).maxFrames = b.maxFrames := rfl
@[simp] theorem Block.setWbuf_code (b : Block) (v : List Word16) : (b.setWbuf v).code = b.code := rfl
@[simp] theorem Block.setWbuf_fatal (b : Block) (v : List Word16) : (b.setWbuf v).fatal = b.fatal := rfl
@[simp] theorem Block.setWbuf_operand (b : Block) (v : List Word16) : (b.setWbuf v).operand = b.operand := rfl
@[simp] theorem Block.setWbuf_len (b : Block) (v : List Word16) : (b.setWbuf v).len = b.len := rfl
@[simp] theorem Block.setWbuf_result (b : Block) (v : List Word16) : (b.setWbuf v).result = b.result := rfl
@[simp] theorem Block.setWbuf_errCrc (b : Block) (v : List Word16) : (b.setWbuf v).errCrc = b.errCrc := rfl
@[simp] theorem Block.setWbuf_errPos (b : Block) (v : List Word16) : (b.setWbuf v).errPos = b.errPos := rfl
@[simp] theorem Block.setWbuf_fatalLen (b : Block) (v : List Word16) : (b.setWbuf v).fatalLen = b.fatalLen := rfl
@[simp] theorem Block.setWbuf_fbuf (b : Block) (v : List Word16) : (b.setWbuf v).fbuf = b.fbuf := rfl
@[simp] theorem Block.setWbuf_wbuf (b : Block) (v : List Word16) : (b.setWbuf v).wbuf = v := rfl

@[simp] theorem State.setBlock_block (s : State) (v : Block) : (s.setBlock v).block = v := rfl
@[simp] theorem State.setBlock_pending (s : State) (v : Block) : (s.setBlock v).pending = s.pending := rfl
@[simp] theorem State.setBlock_response (s : State) (v : Block) : (s.setBlock v).response = s.response := rfl
@[simp] theorem State.setBlock_epoch (s : State) (v : Block) : (s.setBlock v).epoch = s.epoch := rfl

@[simp] theorem State.setPending_block (s : State) (v : List HostEvent) : (s.setPending v).block = s.block := rfl
@[simp] theorem State.setPending_pending (s : State) (v : List HostEvent) : (s.setPending v).pending = v := rfl
@[simp] theorem State.setPending_response (s : State) (v : List HostEvent) : (s.setPending v).response = s.response := rfl
@[simp] theorem State.setPending_epoch (s : State) (v : List HostEvent) : (s.setPending v).epoch = s.epoch := rfl

@[simp] theorem State.setResponse_block (s : State) (v : Option Response) : (s.setResponse v).block = s.block := rfl
@[simp] theorem State.setResponse_pending (s : State) (v : Option Response) : (s.setResponse v).pending = s.pending := rfl
@[simp] theorem State.setResponse_response (s : State) (v : Option Response) : (s.setResponse v).response = v := rfl
@[simp] theorem State.setResponse_epoch (s : State) (v : Option Response) : (s.setResponse v).epoch = s.epoch := rfl

@[simp] theorem State.setEpoch_block (s : State) (v : Nat) : (s.setEpoch v).block = s.block := rfl
@[simp] theorem State.setEpoch_pending (s : State) (v : Nat) : (s.setEpoch v).pending = s.pending := rfl
@[simp] theorem State.setEpoch_response (s : State) (v : Nat) : (s.setEpoch v).response = s.response := rfl
@[simp] theorem State.setEpoch_epoch (s : State) (v : Nat) : (s.setEpoch v).epoch = v := rfl

end Sys2Proof.Machine
end

