-- ==== Sys2Proof/Laws/Ops.lean ====
section
/-! SUPPORT. One lemma per shared operation over a block: everything it does, as one record. -/

namespace Sys2Proof.Machine

theorem illegalCommand_eq (b : Block) : illegalCommand b = { b with code := 5#4 } := rfl

theorem lenRange_eq (b : Block) : lenRange b = { b with code := 6#4 } := rfl

theorem succeed_eq (b : Block) (r : Word32) : succeed b r = { b with result := r, code := 1#4 } := rfl

theorem raiseFatal_eq (b : Block) (n : Word16) :
    raiseFatal b n = { b with fatal := true, code := 7#4, fatalLen := n } := rfl

theorem reportMismatch_eq (b : Block) (code : BitVec 4) (k : Nat) (e c : Byte) :
    reportMismatch b code k e c =
      { b with errCrc := c ++ e, errPos := BitVec.ofNat 16 (3 * k) ++ BitVec.ofNat 16 k, code := code } := rfl

theorem applyReset_eq (s : State) (rest : List HostEvent) (r : Option Response) :
    applyReset s rest r =
      { block := Block.atReset s.block.maxFrames (s.epoch + 1), pending := rest, response := r, epoch := s.epoch + 1 } :=
  rfl

theorem setFbufAt_eq (b : Block) (i : Nat) (v : Byte) :
    setFbufAt b i v = { b with fbuf := b.fbuf.set i v } := rfl

theorem setWbufAt_eq (b : Block) (j : Nat) (v : Word16) :
    setWbufAt b j v = { b with wbuf := b.wbuf.set j v } := rfl

/-! ### Buffers: read after write, and the form the buffers keep -/

theorem fbufAt_setFbufAt_same (b : Block) (i : Nat) (v : Byte) (h : i < b.fbuf.length) :
    fbufAt (setFbufAt b i v) i = v := by
  simp [fbufAt, setFbufAt, List.getD, h]

theorem fbufAt_setFbufAt_other (b : Block) (i j : Nat) (v : Byte) (h : i ≠ j) :
    fbufAt (setFbufAt b i v) j = fbufAt b j := by
  simp [fbufAt, setFbufAt, List.getD, List.getElem?_set_ne h]

theorem wbufAt_setWbufAt_same (b : Block) (j : Nat) (v : Word16) (h : j < b.wbuf.length) :
    wbufAt (setWbufAt b j v) j = v := by
  simp [wbufAt, setWbufAt, List.getD, h]

theorem wbufAt_setWbufAt_other (b : Block) (i j : Nat) (v : Word16) (h : i ≠ j) :
    wbufAt (setWbufAt b i v) j = wbufAt b j := by
  simp [wbufAt, setWbufAt, List.getD, List.getElem?_set_ne h]

/-- A block with the same capacity and buffers of the same sizes has the same form. -/
theorem Memory.wf_of_sizes {b c : Block} (h : Memory.wf b) (hm : c.maxFrames = b.maxFrames)
    (hf : c.fbuf.length = b.fbuf.length) (hw : c.wbuf.length = b.wbuf.length) : Memory.wf c := by
  obtain ⟨h1, h2, h3, h4⟩ := h
  exact ⟨hm ▸ h1, hm ▸ h2, by rw [hf, hm, h3], by rw [hw, hm, h4]⟩

theorem Memory.wf_setFbufAt {b : Block} (h : Memory.wf b) (i : Nat) (v : Byte) : Memory.wf (setFbufAt b i v) :=
  Memory.wf_of_sizes h rfl (by simp [setFbufAt]) rfl

theorem Memory.wf_setWbufAt {b : Block} (h : Memory.wf b) (j : Nat) (v : Word16) : Memory.wf (setWbufAt b j v) :=
  Memory.wf_of_sizes h rfl rfl (by simp [setWbufAt])

theorem Memory.wf_writeReg {b : Block} (h : Memory.wf b) (r : Reg) (v : Word32) : Memory.wf (writeReg b r v) := by
  cases r with
  | fbuf i => exact Memory.wf_setFbufAt h i _
  | wbuf j => exact Memory.wf_setWbufAt h j _
  | _ => exact h

theorem Memory.wf_atReset {maxFrames : Nat} (h1 : 1 ≤ maxFrames) (h2 : maxFrames ≤ Config.maxCapacity) (epoch : Nat) :
    Memory.wf (Block.atReset maxFrames epoch) :=
  ⟨h1, h2, by simp [Block.atReset], by simp [Block.atReset]⟩

theorem maxFrames_legal : 1 ≤ Config.maxFrames ∧ Config.maxFrames ≤ Config.maxCapacity := by
  have := Config.frames.isLt
  simp only [Config.maxFrames, Config.maxCapacity]
  omega

theorem Memory.wf_reset : Memory.wf State.reset.block :=
  Memory.wf_atReset maxFrames_legal.1 maxFrames_legal.2 0

/-- A write to a register other than CMD leaves everything but OPERAND, LEN and the buffers. -/
theorem writeReg_keeps (b : Block) (r : Reg) (v : Word32) :
    (writeReg b r v).maxFrames = b.maxFrames ∧ (writeReg b r v).code = b.code ∧
    (writeReg b r v).fatal = b.fatal ∧ (writeReg b r v).result = b.result ∧
    (writeReg b r v).errCrc = b.errCrc ∧ (writeReg b r v).errPos = b.errPos ∧
    (writeReg b r v).fatalLen = b.fatalLen := by
  cases r <;> simp [writeReg, setFbufAt, setWbufAt]

end Sys2Proof.Machine
end

