-- ==== Sys2Proof/Laws/Bus.lean ====
section
/-! SUPPORT. What one step can do: the meaning of a command as a function of the block, what serving a read, a write
and a reset comes to, and runs of several steps. -/

namespace Sys2Proof.Machine

/-- What each command does to the block. -/
def commandBlock : Instr → Block → Block
  | .crcCompute => crcComputeBlock
  | .crcValidate => crcValidateBlock
  | .readWords => readWordsBlock
  | .writeWords => writeWordsBlock

/-- A command acts on the block alone. -/
theorem exec_eq (i : Instr) (s : State) : exec i s = .next (s.setBlock (commandBlock i s.block)) := by
  cases i <;> rfl

@[simp] theorem answer_block (s : State) (rest : List HostEvent) (r : Response) :
    (answer s rest r).block = s.block := rfl
@[simp] theorem answer_pending (s : State) (rest : List HostEvent) (r : Response) :
    (answer s rest r).pending = rest := rfl
@[simp] theorem answer_response (s : State) (rest : List HostEvent) (r : Response) :
    (answer s rest r).response = some r := rfl
@[simp] theorem answer_epoch (s : State) (rest : List HostEvent) (r : Response) :
    (answer s rest r).epoch = s.epoch := rfl

theorem reach_some_w32 {m : Nat} {off : Offset} {width : Width} {r : Reg} (h : reach m off width = some r) :
    width = .w32 ∧ regAt m off = some r := by
  cases width <;> simp_all [reach]

/-- What the block is after the write of `v` to an accepted register, in a block that is not halted. -/
def writtenBlock (b : Block) (r : Reg) (v : Word32) : Block :=
  if r = .cmd then
    match decode v with
    | .ok i => commandBlock i b
    | .error _ => illegalCommand b
  else writeReg b r v

/-- A step with a read at the head of the port. -/
theorem step_read {s : State} {rest : List HostEvent} {off : Offset} {width : Width}
    (h : s.pending = .access (.read off width) :: rest) :
    step s = .next (answer s rest (match reach s.block.maxFrames off width with
      | none => .refusedRead 0#32 Config.busErrorSignal
      | some r => .readData (readReg s.block r))) := by
  simp only [step, serve, h, serveEvent, serveRead]
  cases reach s.block.maxFrames off width <;> rfl

/-- A step with a write at the head of the port: refused, ignored by a halted block, or carried out. -/
theorem step_write {s : State} {rest : List HostEvent} {off : Offset} {width : Width} {v : Word32}
    (h : s.pending = .access (.write off width v) :: rest) :
    step s = .next (match reach s.block.maxFrames off width with
      | none => answer s rest (.refusedWrite Config.busErrorSignal)
      | some r => (answer s rest .writeAccepted).setBlock (if s.block.fatal then s.block else writtenBlock s.block r v)) := by
  simp only [step, serve, h, serveEvent, serveWrite]
  cases hr : reach s.block.maxFrames off width with
  | none => rfl
  | some r =>
    cases hf : s.block.fatal with
    | true => simp [answer, State.setBlock, State.setPending, State.setResponse]
    | false =>
      by_cases hc : r = .cmd
      · simp only [hc, Bool.false_eq_true, if_false, if_true, serveCommand, writtenBlock]
        cases hd : decode v with
        | ok i => simp [exec_eq]
        | error x => simp
      · simp [hc, writtenBlock]

theorem step_reset {s : State} {rest : List HostEvent} (h : s.pending = .reset :: rest) :
    step s = .next (applyReset s rest none) := by
  simp only [step, serve, h, serveEvent]

theorem step_resetDuringCommand {s : State} {rest : List HostEvent} {v : Word32}
    (h : s.pending = .resetDuringCommand v :: rest) :
    step s = .next (applyReset s rest (some (.abandoned (Config.abandonedSignal (s.epoch + 1))))) := by
  simp only [step, serve, h, serveEvent]

theorem step_idle {s : State} (h : s.pending = []) : step s = .next s := by
  simp only [step, serve, h]

/-- The slot of the CMD register, for every capacity. -/
theorem reach_cmd (m : Nat) : reach m 0x00C#14 .w32 = some .cmd := rfl

/-- Each named register is where R35 puts it, for every capacity. -/
theorem reach_named (m : Nat) {r : Reg} (h : (∀ i, r ≠ .fbuf i) ∧ ∀ j, r ≠ .wbuf j) :
    reach m (regOffset r) .w32 = some r := by
  cases r with
  | fbuf i => exact absurd rfl (h.1 i)
  | wbuf j => exact absurd rfl (h.2 j)
  | _ => rfl

/-- R35: an access reaches only an FBUF entry the buffer has. -/
theorem reach_fbuf_lt {m i : Nat} {off : Offset} (h : reach m off .w32 = some (.fbuf i)) : i < 3 * m := by
  simp only [reach, regAt] at h
  split at h
  · unfold regAtSlot at h
    split at h <;> try (simp at h; done)
    split at h
    · simp only [Option.some.injEq, Reg.fbuf.injEq] at h; omega
    · split at h <;> simp at h
  · simp at h

/-- R35: an access reaches only a WBUF entry the buffer has. -/
theorem reach_wbuf_lt {m j : Nat} {off : Offset} (h : reach m off .w32 = some (.wbuf j)) : j < m := by
  simp only [reach, regAt] at h
  split at h
  · unfold regAtSlot at h
    split at h <;> try (simp at h; done)
    split at h
    · simp at h
    · split at h
      · simp only [Option.some.injEq, Reg.wbuf.injEq] at h; omega
      · simp at h
  · simp at h

@[simp] theorem run_zero (s : State) : run 0 s = .next s := rfl

/-- A run takes its first step and goes on from there. -/
theorem run_succ {s t : State} (n : Nat) (h : step s = .next t) : run (n + 1) s = run n t := by
  have hs : Host.Core.step Sys2Proof.core s = .next t := h
  simp only [run, Host.Core.run]
  rw [hs]

end Sys2Proof.Machine
end

