-- ==== Sys2Proof/Laws/Decode.lean ====
section
/-! SUPPORT. The decoder's fields: what an OPCODE that selects a command is, and a word with nothing in its reserved field. -/

namespace Sys2Proof

theorem opcodeInstr_some {op : BitVec 4} {i : Instr} (h : opcodeInstr op = some i) : op = instrOpcode i := by
  unfold opcodeInstr at h
  split at h <;> cases h <;> rfl

/-- A word whose reserved field is 0 is its OPCODE. -/
theorem eq_of_reserved_zero {v : Word32} (h : cmdReserved v = 0#28) : v = 0#28 ++ cmdOpcode v := by
  have hv : v = cmdReserved v ++ cmdOpcode v := by
    apply BitVec.eq_of_getLsbD_eq
    intro j hj
    simp only [cmdReserved, cmdOpcode, BitVec.getLsbD_append, BitVec.getLsbD_extractLsb']
    by_cases h4 : j < 4
    · simp [h4]
    · have h1 : j - 4 < 28 := by omega
      have h2 : 4 + (j - 4) = j := by omega
      simp [h4, h1, h2]
  rw [h] at hv
  exact hv

end Sys2Proof
end

