-- ==== Sys2Proof/Laws/PerInstr.lean ====
section
/-! SUPPORT. The per-instruction family CommandWord: what R52 says of every command's CMD value. -/

namespace Sys2Proof.Laws.CommandWord

/-- R52, R53: a well-formed command's word has its OPCODE in [3:0], from 1 to 4, and 0 in [31:4]. -/
def Statement (i : Instr) : Prop :=
  i.wellFormed = true → cmdReserved (encode i) = 0#28 ∧ cmdOpcode (encode i) = instrOpcode i ∧
    1 ≤ (instrOpcode i).toNat ∧ (instrOpcode i).toNat ≤ 4

theorem crcCompute : Statement .crcCompute := by unfold Statement; decide
theorem crcValidate : Statement .crcValidate := by unfold Statement; decide
theorem readWords : Statement .readWords := by unfold Statement; decide
theorem writeWords : Statement .writeWords := by unfold Statement; decide

end Sys2Proof.Laws.CommandWord
end

