-- ==== Sys2Proof/Laws/Transfer.lean ====
section
/-! SUPPORT. The loops of READ_WORDS and WRITE_WORDS: what a pass over frames finds, and the buffer it leaves, in
closed form. -/

namespace Sys2Proof.Machine

/-! ### The validation pass -/

theorem validate_ok_iff (b : Block) (k : Nat) :
    validate (fbufAt b (3 * k)) (fbufAt b (3 * k + 1)) (fbufAt b (3 * k + 2)) = .ok ↔ frameValid b k := by
  unfold validate frameValid validFrame
  by_cases h : crc8 (fbufAt b (3 * k)) (fbufAt b (3 * k + 1)) = fbufAt b (3 * k + 2)
  · simp [h]
  · simp [h, Ne.symm h]

/-- A bad frame's report: the received and the computed CRC, which differ. -/
theorem validate_error {hi lo exp e c : Byte} (h : validate hi lo exp = .checksumError e c) :
    e = exp ∧ c = crc8 hi lo ∧ c ≠ e := by
  unfold validate at h
  split at h
  · cases h
  · next hne =>
    cases h
    exact ⟨rfl, rfl, hne⟩

/-- The pass finds nothing exactly when every frame it looks at is valid. -/
theorem firstBadFrame_none_iff (b : Block) (n k : Nat) :
    firstBadFrame b n k = none ↔ ∀ j, k ≤ j → j < k + n → frameValid b j := by
  induction n generalizing k with
  | zero =>
    simp only [firstBadFrame, true_iff]
    intro j h1 h2
    omega
  | succ n ih =>
    unfold firstBadFrame
    split
    · next h =>
      rw [ih]
      have hk := (validate_ok_iff b k).1 h
      constructor
      · intro H j h1 h2
        rcases Nat.eq_or_lt_of_le h1 with rfl | h3
        · exact hk
        · exact H j h3 (by omega)
      · intro H j h1 h2
        exact H j (by omega) (by omega)
    · next e c h =>
      simp only [reduceCtorEq, false_iff]
      intro H
      have := (validate_ok_iff b k).2 (H k (Nat.le_refl k) (by omega))
      rw [h] at this
      cases this

/-- What the pass reports is the first bad frame, with its received and computed CRC. -/
theorem firstBadFrame_some {b : Block} {n k : Nat} {bad : BadFrame} (h : firstBadFrame b n k = some bad) :
    k ≤ bad.index ∧ bad.index < k + n ∧ ¬ frameValid b bad.index ∧
    (∀ j, k ≤ j → j < bad.index → frameValid b j) ∧
    bad.expected = fbufAt b (3 * bad.index + 2) ∧
    bad.computed = crc8 (fbufAt b (3 * bad.index)) (fbufAt b (3 * bad.index + 1)) ∧
    bad.computed ≠ bad.expected := by
  induction n generalizing k with
  | zero => simp [firstBadFrame] at h
  | succ n ih =>
    unfold firstBadFrame at h
    split at h
    · next hv =>
      obtain ⟨h1, h2, h3, h4, h5, h6, h7⟩ := ih h
      refine ⟨by omega, by omega, h3, ?_, h5, h6, h7⟩
      intro j hj1 hj2
      rcases Nat.eq_or_lt_of_le hj1 with rfl | hlt
      · exact (validate_ok_iff b k).1 hv
      · exact h4 j hlt hj2
    · next e c hv =>
      obtain ⟨rfl, rfl, hne⟩ := validate_error hv
      cases h
      refine ⟨Nat.le_refl k, by simp, ?_, ?_, rfl, rfl, hne⟩
      · intro hval
        rw [(validate_ok_iff b k).2 hval] at hv
        cases hv
      · intro j h1 h2
        simp only at h2
        omega

/-- The pass started at 0 stops at `k` when `k` is the lowest bad frame within it. -/
theorem firstBadFrame_eq_of_first {b : Block} {n k : Nat} (hk : k < n) (hbad : ¬ frameValid b k)
    (hgood : ∀ j, j < k → frameValid b j) :
    firstBadFrame b n 0 = some { index := k, expected := fbufAt b (3 * k + 2), computed := crc8 (fbufAt b (3 * k)) (fbufAt b (3 * k + 1)) } := by
  cases h : firstBadFrame b n 0 with
  | none => exact absurd ((firstBadFrame_none_iff b n 0).1 h k (Nat.zero_le k) (by omega)) hbad
  | some bad =>
    obtain ⟨-, h2, h3, h4, h5, h6, -⟩ := firstBadFrame_some h
    have hidx : bad.index = k := by
      rcases Nat.lt_trichotomy bad.index k with hlt | heq | hgt
      · exact absurd (hgood _ hlt) h3
      · exact heq
      · exact absurd (h4 k (Nat.zero_le k) hgt) hbad
    cases bad
    simp_all

/-! ### The commit pass -/

/-- The commit pass writes WBUF and nothing else. -/
theorem commitFrames_only_wbuf (n k : Nat) (b : Block) :
    commitFrames n k b = { b with wbuf := (commitFrames n k b).wbuf } := by
  induction n generalizing k b with
  | zero => rfl
  | succ n ih => rw [commitFrames, ih]; rfl

theorem frameWord_congr {b c : Block} (h : c.fbuf = b.fbuf) (k : Nat) : frameWord c k = frameWord b k := by
  simp [frameWord, fbufAt, h]

theorem commitFrames_wbuf (n k : Nat) (b : Block) (h : k + n ≤ b.wbuf.length) :
    (commitFrames n k b).wbuf =
      b.wbuf.take k ++ (List.range' k n).map (frameWord b) ++ b.wbuf.drop (k + n) := by
  induction n generalizing k b with
  | zero => simp [commitFrames]
  | succ n ih =>
    have hk : k < b.wbuf.length := by omega
    rw [commitFrames, ih (k + 1) _ (by simp [setWbufAt]; omega)]
    have hfw : frameWord (setWbufAt b k (joinWord (fbufAt b (3 * k)) (fbufAt b (3 * k + 1)))) = frameWord b :=
      funext fun j => frameWord_congr rfl j
    have htake : ∀ w, (b.wbuf.set k w).take (k + 1) = b.wbuf.take k ++ [w] := by
      intro w
      rw [List.take_add_one, List.take_set_of_le (Nat.le_refl k)]
      simp [hk]
    have hdrop : ∀ w, (b.wbuf.set k w).drop (k + 1 + n) = b.wbuf.drop (k + (n + 1)) := by
      intro w
      rw [List.drop_set_of_lt (by omega), Nat.add_right_comm, Nat.add_assoc]
    rw [hfw]
    simp only [setWbufAt, Block.setWbuf_wbuf, htake, hdrop, List.range'_succ, List.map_cons]
    simp [frameWord]

/-! ### The encoding loop -/

theorem emitFrame_only_fbuf (b : Block) (k : Nat) :
    emitFrame b k = { b with fbuf := (emitFrame b k).fbuf } := rfl

/-- The encoding loop writes FBUF and nothing else. -/
theorem emitFrames_only_fbuf (n k : Nat) (b : Block) :
    emitFrames n k b = { b with fbuf := (emitFrames n k b).fbuf } := by
  induction n generalizing k b with
  | zero => rfl
  | succ n ih => rw [emitFrames, ih]; rfl

theorem emitFrame_fbuf (b : Block) (k : Nat) (h : 3 * k + 3 ≤ b.fbuf.length) :
    (emitFrame b k).fbuf = b.fbuf.take (3 * k) ++ frameOf (wbufAt b k) ++ b.fbuf.drop (3 * k + 3) := by
  apply List.ext_getElem?
  intro i
  simp only [emitFrame, setFbufAt, Block.setFbuf_fbuf, frameOf, List.getElem?_set, List.getElem?_append,
    List.length_set, List.length_take, List.length_append, List.length_cons, List.length_nil, List.getElem?_take,
    List.getElem?_drop]
  rcases Nat.lt_or_ge i (3 * k) with h1 | h1
  · have : 3 * k + 2 ≠ i := by omega
    have : 3 * k + 1 ≠ i := by omega
    have : 3 * k ≠ i := by omega
    have : i < min (3 * k) b.fbuf.length := by omega
    simp [*]; omega
  · rcases Nat.lt_or_ge i (3 * k + 3) with h2 | h2
    · obtain rfl | rfl | rfl : i = 3 * k ∨ i = 3 * k + 1 ∨ i = 3 * k + 2 := by omega
      all_goals
        have hm : min (3 * k) b.fbuf.length = 3 * k := by omega
        simp [hm]; omega
    · have : 3 * k + 2 ≠ i := by omega
      have : 3 * k + 1 ≠ i := by omega
      have : 3 * k ≠ i := by omega
      have hm : min (3 * k) b.fbuf.length = 3 * k := by omega
      have h3 : ¬ i < 3 * k + (0 + 1 + 1 + 1) := by omega
      have h4 : 3 * k + 3 + (i - (3 * k + (0 + 1 + 1 + 1))) = i := by omega
      simp [*]

theorem emitFrames_fbuf (n k : Nat) (b : Block) (h : 3 * (k + n) ≤ b.fbuf.length) :
    (emitFrames n k b).fbuf =
      b.fbuf.take (3 * k) ++ (List.range' k n).flatMap (fun j => frameOf (wbufAt b j)) ++
        b.fbuf.drop (3 * (k + n)) := by
  induction n generalizing k b with
  | zero => simp [emitFrames]
  | succ n ih =>
    have hf := emitFrame_fbuf b k (by omega)
    have hlen : (emitFrame b k).fbuf.length = b.fbuf.length := by simp [emitFrame, setFbufAt]
    have hw : ∀ j, wbufAt (emitFrame b k) j = wbufAt b j := fun _ => rfl
    rw [emitFrames, ih (k + 1) _ (by omega)]
    have htake : (emitFrame b k).fbuf.take (3 * (k + 1)) = b.fbuf.take (3 * k) ++ frameOf (wbufAt b k) := by
      rw [hf, List.take_append_of_le_length (by simp [frameOf]; omega), List.take_of_length_le (by simp [frameOf]; omega)]
    have hdrop : (emitFrame b k).fbuf.drop (3 * (k + 1 + n)) = b.fbuf.drop (3 * (k + (n + 1))) := by
      rw [hf, List.drop_append, List.drop_of_length_le (by simp [frameOf]; omega), List.drop_drop]
      simp only [List.nil_append, List.length_append, List.length_take, frameOf, List.length_cons, List.length_nil]
      congr 1
      omega
    rw [htake, hdrop]
    simp [List.range'_succ, hw]

/-! ### The commands keep the form of the buffers -/

theorem commitFrames_length (n k : Nat) (b : Block) : (commitFrames n k b).wbuf.length = b.wbuf.length := by
  induction n generalizing k b with
  | zero => rfl
  | succ n ih => rw [commitFrames, ih]; simp [setWbufAt]

theorem emitFrames_length (n k : Nat) (b : Block) : (emitFrames n k b).fbuf.length = b.fbuf.length := by
  induction n generalizing k b with
  | zero => rfl
  | succ n ih => rw [emitFrames, ih]; simp [emitFrame, setFbufAt]

theorem Memory.wf_commitFrames {b : Block} (h : Memory.wf b) (n k : Nat) : Memory.wf (commitFrames n k b) := by
  rw [commitFrames_only_wbuf]
  exact Memory.wf_of_sizes h rfl rfl (commitFrames_length n k b)

theorem Memory.wf_emitFrames {b : Block} (h : Memory.wf b) (n k : Nat) : Memory.wf (emitFrames n k b) := by
  rw [emitFrames_only_fbuf]
  exact Memory.wf_of_sizes h rfl (emitFrames_length n k b) rfl

end Sys2Proof.Machine
end

