-- ==== Sys2Proof/Tests/Slice0.lean ====
section
/-! SUPPORT. Our own tests. Every expected value is taken from spec/95_test_vectors.md, or from the rule a comment
names, never from the model. Then one witness for every statement with hypotheses: a concrete state and operands that
meet all of them together. -/

namespace Sys2Proof.Tests

open Sys2Proof Sys2Proof.Machine

/-! ### Small states -/

/-- A block of two frames: 00 01 B0 and BE EF 92 (95 §2.2), with the sentinel words of 95 §3.1 in WBUF. -/
def twoFrames : Block where
  maxFrames := 2
  code := 0#4
  fatal := false
  operand := 0x00BEEF#24
  len := 6#16
  result := 0#32
  errCrc := 0#16
  errPos := 0#32
  fatalLen := 0#16
  fbuf := [0x00#8, 0x01#8, 0xB0#8, 0xBE#8, 0xEF#8, 0x92#8]
  wbuf := [0x5555#16, 0x5555#16]

/-- The same block with bit 0 of byte 4 flipped (95 §1 E6, §3.1). -/
def badSecondFrame : Block := { twoFrames with fbuf := [0x00#8, 0x01#8, 0xB0#8, 0xBE#8, 0xEE#8, 0x92#8] }

/-- The same block halted by LEN = 4 (95 §4.2). -/
def haltedBlock : Block := { twoFrames with code := 7#4, fatal := true, len := 4#16, fatalLen := 4#16 }

/-- A machine at block `b` with these events pending. -/
def atPort (b : Block) (pending : List HostEvent) : State :=
  { block := b, pending := pending, response := none, epoch := 0 }

/-- The state an outcome goes on with. -/
def nextState : Host.Outcome State Fault Refusal → Option State
  | .next t => some t
  | .fault _ => none
  | .refused _ => none

/-- The block after one outcome. -/
def nextBlock (o : Host.Outcome State Fault Refusal) : Option Block := (nextState o).map State.block

/-- The answer at the port after one outcome. -/
def nextResponse (o : Host.Outcome State Fault Refusal) : Option Response := (nextState o).bind State.response

/-! ### Well-formedness: each check refuses an ill-formed term -/

theorem test_capacity_zero_refused : legalCapacity 0 = false := by decide
theorem test_capacity_342_refused : legalCapacity 342 = false := by decide
theorem test_capacity_bounds_accepted : legalCapacity 1 = true ∧ legalCapacity 341 = true := by decide
/-- 95 §4.3: an 8-bit read at 0x010. -/
theorem test_byte_access_refused : Access.wellFormed 64 (.read 0x010#14 .w8) = false := by decide
/-- R36: a 16-bit write. -/
theorem test_halfword_access_refused : Access.wellFormed 64 (.write 0x014#14 .w16 0#32) = false := by decide
/-- 95 §4.3: a misaligned read at 0x012. -/
theorem test_misaligned_access_refused : Access.wellFormed 64 (.read 0x012#14 .w32) = false := by decide
/-- 95 §4.3: unmapped offsets: 0x02C, FBUF[192] at 64 frames, and the ends of the buffers at 1 and at 341 frames. -/
theorem test_unmapped_access_refused :
    Access.wellFormed 64 (.read 0x02C#14 .w32) = false ∧
    Access.wellFormed 64 (.read (0x1000#14 + 4#14 * 192#14) .w32) = false ∧
    Access.wellFormed 1 (.read 0x100C#14 .w32) = false ∧ Access.wellFormed 1 (.read 0x2004#14 .w32) = false ∧
    Access.wellFormed 341 (.read (0x1000#14 + 4#14 * 1023#14) .w32) = false ∧
    Access.wellFormed 341 (.read (0x2000#14 + 4#14 * 341#14) .w32) = false := by decide
/-- 95 §4.3: the last mapped entries at 341 frames. -/
theorem test_last_entries_reached :
    reach 341 (0x1000#14 + 4#14 * 1022#14) .w32 = some (.fbuf 1022) ∧
    reach 341 (0x2000#14 + 4#14 * 340#14) .w32 = some (.wbuf 340) := by decide
theorem test_program_with_a_refused_access :
    wellFormedProgram 64 [wr .len 3#32, .access (.read 0x02C#14 .w32)] = false ∧
    wellFormedProgram 64 [wr .len 3#32, wrCommand .readWords, rd .status, .reset] = true := by decide

/-! ### Decoding: R53's words bit by bit, R57's illegal values -/

/-- R52, R53: 28 reserved bits of 0, then the OPCODE 0001. -/
theorem test_decode_crc_compute : decode 0b00000000000000000000000000000001#32 = .ok .crcCompute := by rfl
/-- R52, R53: OPCODE 0010. -/
theorem test_decode_crc_validate : decode 0b00000000000000000000000000000010#32 = .ok .crcValidate := by rfl
/-- R52, R53: OPCODE 0011. -/
theorem test_decode_read_words : decode 0b00000000000000000000000000000011#32 = .ok .readWords := by rfl
/-- R52, R53: OPCODE 0100. -/
theorem test_decode_write_words : decode 0b00000000000000000000000000000100#32 = .ok .writeWords := by rfl
/-- 95 §4.1. -/
theorem test_decode_unassigned_opcodes :
    decode 0x00000000#32 = .error (.opcodeUnassigned 0x0#4) ∧ decode 0x00000005#32 = .error (.opcodeUnassigned 0x5#4) ∧
    decode 0x0000000F#32 = .error (.opcodeUnassigned 0xF#4) := ⟨rfl, rfl, rfl⟩
/-- 95 §4.1. -/
theorem test_decode_reserved_bits :
    decode 0x00000011#32 = .error .reservedBitsSet ∧ decode 0x80000001#32 = .error .reservedBitsSet := ⟨rfl, rfl⟩
/-- A table word with a bit above the 32-bit CMD value is no command; bits above `nbits` do not count. -/
theorem test_table_word_bounds :
    decodeTableWord 64 (2 ^ 32 + 1) = none ∧ decodeTableWord 32 (2 ^ 32 + 1) = some .crcCompute := by decide

/-! ### The CRC-8 engine (95 §2.1, §2.2) -/

/-- 95 §2.1: for 1234 the steps are 8D and 37; and the row of each corner of §2.2. -/
theorem test_crc_vectors :
    crcStep 0xFF#8 0x12#8 = 0x8D#8 ∧ crcStep 0x8D#8 0x34#8 = 0x37#8 ∧
    crcWord 0x0000#16 = 0x81#8 ∧ crcWord 0xFF00#16 = 0x00#8 ∧ crcWord 0xFFFF#16 = 0xAC#8 ∧
    crcWord 0x8000#16 = 0xA2#8 ∧ crcWord 0x0080#16 = 0xFB#8 ∧ crcWord 0x9234#16 = 0x14#8 := by decide +kernel
/-- 95 §2.2: "123456789" from 0xFF gives F7. -/
theorem test_crc_catalogue_check :
    [0x31#8, 0x32#8, 0x33#8, 0x34#8, 0x35#8, 0x36#8, 0x37#8, 0x38#8, 0x39#8].foldl crcStep 0xFF#8 = 0xF7#8 := by
  decide +kernel

/-! ### The commands -/

/-- 95 §2.3: 00AB1234 gives 37; OPERAND[23:16] is ignored, and only RESULT and CODE change. -/
theorem test_crc_compute_ignores_the_top_byte :
    nextBlock (exec .crcCompute (atPort { twoFrames with operand := 0xAB1234#24 } [])) =
      some { twoFrames with operand := 0xAB1234#24, result := 0x37#32, code := 1#4 } := by decide +kernel
/-- 95 §2.3: 0000FF00 gives 0. -/
theorem test_crc_compute_crc_of_zero :
    nextBlock (exec .crcCompute (atPort { twoFrames with operand := 0x00FF00#24, result := 5#32 } [])) =
      some { twoFrames with operand := 0x00FF00#24, result := 0#32, code := 1#4 } := by decide +kernel

/-- 95 §2.4: BEEF92 is OK and leaves the error registers. -/
theorem test_crc_validate_ok :
    nextBlock (exec .crcValidate (atPort { twoFrames with operand := 0xBEEF92#24, errPos := 0x00030001#32 } [])) =
      some { twoFrames with
        operand := 0xBEEF92#24, errPos := 0x00030001#32, result := 0x92#32, code := 1#4 } := by decide +kernel
/-- 95 §2.4: BEEF93 is CRC_MISMATCH with ERR_CRC 9293 and ERR_POS 0. -/
theorem test_crc_validate_mismatch :
    nextBlock (exec .crcValidate (atPort { twoFrames with operand := 0xBEEF93#24, errPos := 0x00030001#32 } [])) =
      some { twoFrames with
        operand := 0xBEEF93#24, errCrc := 0x9293#16, errPos := 0#32, result := 0x92#32, code := 2#4 } := by
  decide +kernel

/-- 95 §3.1: 00 01 B0 BE EF 92 at LEN 6. -/
theorem test_read_words_two_frames :
    nextBlock (exec .readWords (atPort twoFrames [])) =
      some { twoFrames with wbuf := [0x0001#16, 0xBEEF#16], result := 2#32, code := 1#4 } := by decide +kernel
/-- 95 §3.1, P3: 00 01 B0 BE EE 92 at LEN 6; WBUF keeps its sentinels. -/
theorem test_read_words_bad_second_frame :
    nextBlock (exec .readWords (atPort { badSecondFrame with result := 9#32 } [])) =
      some { badSecondFrame with
        result := 0#32, errCrc := 0xA392#16, errPos := 0x00030001#32, code := 3#4 } := by decide +kernel

/-- 95 §3.2: 0001 BEEF at LEN 2. -/
theorem test_write_words_two_words :
    nextBlock (exec .writeWords (atPort { twoFrames with
      len := 2#16, wbuf := [0x0001#16, 0xBEEF#16], fbuf := List.replicate 6 0x77#8 } [])) =
      some { twoFrames with
        len := 2#16, wbuf := [0x0001#16, 0xBEEF#16], result := 6#32, code := 1#4 } := by decide +kernel
/-- 95 §3.2: LEN 0 succeeds and writes nothing; LEN above MAX_FRAMES is LEN_RANGE and nothing else. -/
theorem test_write_words_empty_and_too_long :
    nextBlock (exec .writeWords (atPort { twoFrames with len := 0#16, result := 9#32 } [])) =
      some { twoFrames with len := 0#16, result := 0#32, code := 1#4 } ∧
    nextBlock (exec .writeWords (atPort { twoFrames with len := 3#16, result := 9#32 } [])) =
      some { twoFrames with len := 3#16, result := 9#32, code := 6#4 } := by decide +kernel

/-- 95 §3.1: with LEN 4 the block halts with STATUS 17 and FATAL_LEN 4, above the capacity too (R87). -/
theorem test_fatal_precondition :
    (nextBlock (exec .readWords (atPort { twoFrames with len := 4#16 } []))).map (readReg · .status) = some 0x17#32 ∧
    nextBlock (exec .readWords (atPort { twoFrames with len := 4#16 } [])) = some haltedBlock ∧
    (nextBlock (exec .readWords (atPort { twoFrames with len := 193#16 } []))).map (readReg · .fatalLen) =
      some 193#32 := by decide +kernel
/-- 95 §3.1: LEN 0xFFFF is a multiple of 3, so LEN_RANGE and not fatal; so is LEN 9 on two frames. -/
theorem test_read_words_len_range :
    nextBlock (exec .readWords (atPort { twoFrames with len := 0xFFFF#16 } [])) =
      some { twoFrames with len := 0xFFFF#16, code := 6#4 } ∧
    nextBlock (exec .readWords (atPort { twoFrames with len := 9#16 } [])) =
      some { twoFrames with len := 9#16, code := 6#4 } := by decide +kernel

/-! ### The port (95 §4.1 to §4.3) -/

theorem test_read_id_config_capacity :
    nextResponse (step (atPort twoFrames [rd .id])) = some (.readData 0x43524338#32) ∧
    nextResponse (step (atPort twoFrames [rd .config])) = some (.readData 0x0000FF31#32) ∧
    nextResponse (step (atPort twoFrames [rd .capacity])) = some (.readData 0x00000002#32) ∧
    nextResponse (step (atPort twoFrames [rd .cmd])) = some (.readData 0x00000000#32) := by decide +kernel
theorem test_writes_drop_the_reserved_bits :
    (nextBlock (step (atPort twoFrames [wr .operand 0xFFFFFFFF#32]))).map (readReg · .operand) = some 0x00FFFFFF#32 ∧
    (nextBlock (step (atPort twoFrames [wr .len 0xFFFFFFFF#32]))).map (readReg · .len) = some 0x0000FFFF#32 ∧
    (nextBlock (step (atPort twoFrames [wr (.fbuf 0) 0xFFFFFFFF#32]))).map (readReg · (.fbuf 0)) = some 0xFF#32 ∧
    (nextBlock (step (atPort twoFrames [wr (.wbuf 0) 0xFFFFFFFF#32]))).map (readReg · (.wbuf 0)) = some 0xFFFF#32 := by
  decide +kernel
theorem test_status_write_ignored :
    nextState (step (atPort twoFrames [wr .status 0xFFFFFFFF#32])) =
      some { atPort twoFrames [] with response := some .writeAccepted } := by decide +kernel
/-- 95 §4.3: an 8-bit read at 0x010 is a bus error with data 0 and no state change. -/
theorem test_refused_read_gets_zero :
    step (atPort twoFrames [.access (.read 0x010#14 .w8)]) =
      .next { atPort twoFrames [] with response := some (.refusedRead 0#32 Config.busErrorSignal) } := by rfl
/-- 95 §4.1: the value 11 sets CODE 5 and leaves RESULT. -/
theorem test_illegal_command :
    nextBlock (step (atPort { twoFrames with result := 0x37#32 } [wr .cmd 0x11#32])) =
      some { twoFrames with result := 0x37#32, code := 5#4 } := by decide +kernel
/-- 95 §4.2: writes to a halted block are ignored, commands too; reads still work. -/
theorem test_halted_block_ignores_writes :
    nextBlock (step (atPort haltedBlock [wr .len 3#32])) = some haltedBlock ∧
    nextBlock (step (atPort haltedBlock [wrCommand .crcCompute])) = some haltedBlock ∧
    nextBlock (step (atPort haltedBlock [wr (.fbuf 0) 0x12#32])) = some haltedBlock ∧
    nextResponse (step (atPort haltedBlock [rd .len])) = some (.readData 4#32) := by decide +kernel
/-- 95 §4.2: after reset STATUS, LEN and FATAL_LEN are 0. -/
theorem test_reset_ends_the_halt :
    (nextBlock (step (atPort haltedBlock [.reset]))).map (readReg · .status) = some 0#32 ∧
    (nextBlock (step (atPort haltedBlock [.reset]))).map (readReg · .len) = some 0#32 ∧
    (nextBlock (step (atPort haltedBlock [.reset]))).map (readReg · .fatalLen) = some 0#32 := ⟨rfl, rfl, rfl⟩
/-- The word placed at the port is the next command (95 §2.3: BEEF gives 92). -/
theorem test_placed_word_runs :
    (nextBlock (step ((atPort twoFrames [rd .id]).withFetchWord 32 1))).map Block.result = some 0x92#32 := by
  decide +kernel
/-- 95 P1: the triples of WR OPERAND, WR CMD and RD RESULT. -/
theorem test_triples_of_compute :
    (expand (.compute 0xBEEF#16)).map triple =
      [some (0x0014#14, .w, 0x0000BEEF#32), some (0x000C#14, .w, 0x00000001#32), some (0x001C#14, .r, 0#32)] := by
  decide
/-- 95 P2: the offsets of the buffer entries it writes. -/
theorem test_triples_of_loadw :
    (expand (.loadW 0 [0x0001#16, 0xBEEF#16])).map triple =
      [some (0x2000#14, .w, 0x00000001#32), some (0x2004#14, .w, 0x0000BEEF#32)] := by decide

/-! ### Witnesses: the hypotheses of each statement, met together -/

theorem illegal_zero (i : Instr) : decode 0x00000000#32 ≠ .ok i := nofun
theorem illegal_five (i : Instr) : decode 0x00000005#32 ≠ .ok i := nofun
theorem illegal_sixteen (i : Instr) : decode 0x00000010#32 ≠ .ok i := nofun

/-- A CMD write is pending in a running block; 0, 5 and 0x10 border the legal values. -/
theorem witness_IllegalCommandSetsOnlyTheCode :
    twoFrames.fatal = false ∧ (atPort twoFrames [wr .cmd 0#32]).pending = [.access (.write 0x00C#14 .w32 0#32)] ∧
    (∀ i, decode 0x0#32 ≠ .ok i) ∧ (∀ i, decode 0x5#32 ≠ .ok i) ∧ (∀ i, decode 0x10#32 ≠ .ok i) :=
  ⟨rfl, rfl, illegal_zero, illegal_five, illegal_sixteen⟩

/-- One value for each clause: the four commands, and a reserved bit, OPCODE 0 and OPCODE 5 of the last clause. -/
theorem witness_StepRunsTheCommandWrittenToCmd :
    twoFrames.fatal = false ∧
    (∀ v, (atPort twoFrames [wr .cmd v]).pending = .access (.write 0x00C#14 .w32 v) :: []) ∧
    decode 0x1#32 = .ok .crcCompute ∧ decode 0x4#32 = .ok .writeWords ∧
    (0x10#32).extractLsb' 4 28 ≠ 0#28 ∧ (0x0#32).extractLsb' 0 4 = 0x0#4 ∧ 5 ≤ ((0x5#32).extractLsb' 0 4).toNat :=
  ⟨rfl, fun _ => rfl, rfl, rfl, by decide, by decide, by decide⟩

theorem witness_PlacedWordIsTheNextCommand :
    (atPort twoFrames []).block.fatal = false ∧ decodeTableWord 32 4 = some .writeWords ∧
    decodeTableWord 4 0x21 = some .crcCompute := by decide

theorem witness_SingleBitFlipsChangeTheCrcByTheirSyndrome : (0 < 16) ∧ (15 < 16) := by decide

theorem witness_OneChangedByteMakesAFrameInvalid :
    validFrame 0xBE#8 0xEF#8 0x92#8 = true ∧ 0xBF#8 ≠ 0xBE#8 ∧ 0xEE#8 ≠ 0xEF#8 ∧ 0x93#8 ≠ 0x92#8 := by decide +kernel

theorem witness_ValidateComparesWithTheComputedCrc :
    crc8 0xBE#8 0xEF#8 = 0x92#8 ∧ crc8 0xBE#8 0xEF#8 ≠ 0x93#8 := by decide +kernel

theorem witness_CrcValidateReportsTheComputedCrc :
    crc8 ((0xBEEF92#24).extractLsb' 16 8) ((0xBEEF92#24).extractLsb' 8 8) = (0xBEEF92#24).extractLsb' 0 8 ∧
    crc8 ((0xBEEF93#24).extractLsb' 16 8) ((0xBEEF93#24).extractLsb' 8 8) ≠ (0xBEEF93#24).extractLsb' 0 8 := by
  decide +kernel

/-- Both commands answer next; the second state ends with a code other than CRC_MISMATCH. -/
theorem witness_EngineCommandsChangeOnlyTheirRegisters :
    (∃ t, exec .crcCompute (atPort twoFrames []) = .next t ∧ t.block.code ≠ 2#4) ∧
    (∃ t, exec .crcValidate (atPort { twoFrames with operand := 0xBEEF92#24 } []) = .next t ∧ t.block.code ≠ 2#4) :=
  ⟨⟨_, rfl, by decide +kernel⟩, ⟨_, rfl, by decide +kernel⟩⟩

/-- Lengths 0 and 4, one bad second frame after a good one, and two good frames. -/
theorem witness_ReadWordsOfReportsTheFirstMismatch :
    (([] : List Byte).length = 0) ∧ ([0#8, 0#8, 0#8, 0#8] : List Byte).length % 3 ≠ 0 ∧
    badSecondFrame.fbuf.length ≠ 0 ∧ badSecondFrame.fbuf.length % 3 = 0 ∧
    ¬ bytesValid badSecondFrame.fbuf 1 ∧ (∀ j, j < 1 → bytesValid badSecondFrame.fbuf j) ∧
    (∀ k, k < twoFrames.fbuf.length / 3 → bytesValid twoFrames.fbuf k) := by
  unfold bytesValid; decide +kernel

theorem witness_WriteWordsOfEmitsAFrameForEachWord :
    0 < [0x0001#16, 0xBEEF#16].length ∧ 1 < [0x0001#16, 0xBEEF#16].length := by decide

/-- Each clause: LEN 0 and 4; LEN 9, above two frames; LEN 6, which is the capacity. -/
theorem witness_ReadWordsCarriesOutReadWordsOf :
    Memory.wf twoFrames ∧ (0#16).toNat = 0 ∧ (4#16).toNat % 3 ≠ 0 ∧
    ((9#16).toNat ≠ 0 ∧ (9#16).toNat % 3 = 0 ∧ 3 * twoFrames.maxFrames < (9#16).toNat) ∧
    (twoFrames.len.toNat ≠ 0 ∧ twoFrames.len.toNat % 3 = 0 ∧ twoFrames.len.toNat ≤ 3 * twoFrames.maxFrames) := by
  decide

theorem twoFrames_valid : ∀ k, k < twoFrames.len.toNat / 3 → frameValid twoFrames k := by
  unfold frameValid; decide +kernel

theorem witness_ReadWordsCompletesOnValidFrames :
    Memory.wf twoFrames ∧ twoFrames.len.toNat ≠ 0 ∧ twoFrames.len.toNat % 3 = 0 ∧
    twoFrames.len.toNat ≤ 3 * twoFrames.maxFrames ∧ (∀ k, k < twoFrames.len.toNat / 3 → frameValid twoFrames k) :=
  ⟨by decide, by decide, by decide, by decide, twoFrames_valid⟩

/-- LEN 3 is above two frames, LEN 2 is the capacity. -/
theorem witness_WriteWordsCarriesOutWriteWordsOf :
    Memory.wf twoFrames ∧ twoFrames.maxFrames < (3#16).toNat ∧ (2#16).toNat ≤ twoFrames.maxFrames := by decide

/-- LEN 9 and 7 on two frames, and LEN 3 for WRITE_WORDS. -/
theorem witness_LengthBeyondCapacitySetsOnlyTheCode :
    (3 * twoFrames.maxFrames < (9#16).toNat ∧ (9#16).toNat ≠ 0 ∧ (9#16).toNat % 3 = 0) ∧
    (3 * twoFrames.maxFrames < (7#16).toNat ∧ (7#16).toNat % 3 ≠ 0) ∧ twoFrames.maxFrames < (3#16).toNat := by decide

theorem witness_FatalEntryIsPreciseAndOnlyFromReadWords :
    (atPort { twoFrames with len := 4#16 } []).block.fatal = false ∧
    ∃ t, exec .readWords (atPort { twoFrames with len := 4#16 } []) = .next t ∧ t.block.fatal = true :=
  ⟨rfl, _, rfl, rfl⟩

/-- One outcome with code OK and one with FRAME_MISMATCH. -/
theorem witness_ReadWordsChangesOnlyItsResults :
    (∃ t, exec .readWords (atPort twoFrames []) = .next t ∧ t.block.code ≠ 3#4) ∧
    (∃ t, exec .readWords (atPort badSecondFrame []) = .next t ∧ t.block.code ≠ 1#4) ∧
    (∃ t, exec .readWords (atPort { twoFrames with len := 9#16 } []) = .next t ∧
      t.block.code ≠ 1#4 ∧ t.block.code ≠ 3#4) :=
  ⟨⟨_, rfl, by decide +kernel⟩, ⟨_, rfl, by decide +kernel⟩, ⟨_, rfl, by decide +kernel⟩⟩

theorem witness_WriteWordsChangesOnlyItsResults :
    (∃ t, exec .writeWords (atPort { twoFrames with len := 2#16 } []) = .next t) ∧
    (∃ t, exec .writeWords (atPort { twoFrames with len := 3#16 } []) = .next t ∧ t.block.code ≠ 1#4) :=
  ⟨⟨_, rfl⟩, ⟨_, rfl, by decide +kernel⟩⟩

/-- m = 2, the capacity, and m = 0. -/
theorem witness_WriteThenReadGivesTheWordsBack :
    Memory.wf twoFrames ∧ twoFrames.fatal = false ∧ 2 ≤ twoFrames.maxFrames ∧ 0 ≤ twoFrames.maxFrames ∧
    ∀ m, (atPort twoFrames [wr .len (BitVec.ofNat 32 m), wrCommand .writeWords, wr .len (BitVec.ofNat 32 (3 * m)),
      wrCommand .readWords]).pending = wr .len (BitVec.ofNat 32 m) :: wrCommand .writeWords ::
        wr .len (BitVec.ofNat 32 (3 * m)) :: wrCommand .readWords :: [] :=
  ⟨by decide, rfl, by decide, by decide, fun _ => rfl⟩

/-- The second of two valid frames, BE EF 92: its bytes 3, 4 and 5 changed to BF, EE and 93. -/
theorem witness_ChangedByteIsReportedAtItsFrame :
    Memory.wf twoFrames ∧ twoFrames.len.toNat % 3 = 0 ∧ twoFrames.len.toNat ≤ 3 * twoFrames.maxFrames ∧
    (∀ j, j < twoFrames.len.toNat / 3 → frameValid twoFrames j) ∧ 1 < twoFrames.len.toNat / 3 ∧
    (3 = 3 * 1 ∧ 0xBF#8 ≠ fbufAt twoFrames 3) ∧ (4 = 3 * 1 + 1 ∧ 0xEE#8 ≠ fbufAt twoFrames 4) ∧
    (5 = 3 * 1 + 2 ∧ 0x93#8 ≠ fbufAt twoFrames 5) :=
  ⟨by decide, by decide, by decide, twoFrames_valid, by decide, by decide, by decide, by decide⟩

theorem witness_FailedReadWordsGivesNoPartialResult :
    (∃ t, exec .readWords (atPort twoFrames []) = .next t ∧ t.block.code = 1#4) ∧
    (∃ t, exec .readWords (atPort badSecondFrame []) = .next t ∧ t.block.code = 3#4) :=
  ⟨⟨_, rfl, by decide +kernel⟩, ⟨_, rfl, by decide +kernel⟩⟩

theorem witness_FrameMismatchWrapsTheChecksumError :
    (∃ t, exec .readWords (atPort badSecondFrame []) = .next t ∧ t.block.code = 3#4) ∧
    (atPort { twoFrames with operand := 0xBEEE92#24 } []).block.operand =
      fbufAt badSecondFrame 3 ++ fbufAt badSecondFrame 4 ++ fbufAt badSecondFrame 5 :=
  ⟨⟨_, rfl, by decide +kernel⟩, by decide⟩

theorem witness_RegisterMapIsTheTable : (1 ≤ 1 ∧ 1 ≤ 341) ∧ (1 ≤ 341 ∧ 341 ≤ 341) := by decide

/-- A byte access, a misaligned one and one at the first offset above the registers. -/
theorem witness_RefusedAccessChangesNothing :
    reach twoFrames.maxFrames 0x010#14 .w8 = none ∧ reach twoFrames.maxFrames 0x012#14 .w32 = none ∧
    reach twoFrames.maxFrames 0x02C#14 .w32 = none ∧
    (atPort twoFrames [.access (.read 0x010#14 .w8)]).pending = [.access (.read 0x010#14 .w8)] ∧
    (atPort twoFrames [.access (.write 0x02C#14 .w32 0#32)]).pending = [.access (.write 0x02C#14 .w32 0#32)] := by
  decide

theorem witness_HostReadReturnsTheRegister :
    Memory.wf twoFrames ∧
    reach twoFrames.maxFrames 0x028#14 .w32 = some .fatalLen ∧ reach twoFrames.maxFrames 0x1014#14 .w32 = some (.fbuf 5) ∧
    (atPort twoFrames [.access (.read 0x1014#14 .w32)]).pending = [.access (.read 0x1014#14 .w32)] := by decide

theorem witness_HardwiredRegistersNeverChange :
    Memory.wf twoFrames ∧ ∃ t, step (atPort twoFrames [wr .capacity 9#32]) = .next t := ⟨by decide, _, rfl⟩

/-- Halted: OPERAND's offset is mapped. Running: each listed offset, and the last entry of each buffer. -/
theorem witness_HostWriteStoresWithinTheField :
    (reach haltedBlock.maxFrames 0x014#14 .w32 ≠ none ∧ haltedBlock.fatal = true) ∧
    (twoFrames.fatal = false ∧ twoFrames.maxFrames ≤ 341 ∧ 5 < 3 * twoFrames.maxFrames ∧ 1 < twoFrames.maxFrames) ∧
    (atPort twoFrames [wr (.fbuf 5) 0xFF#32]).pending = [.access (.write (BitVec.ofNat 14 (0x1000 + 4 * 5)) .w32 0xFF#32)] ∧
    (atPort twoFrames [wr .id 0#32]).pending = [.access (.write 0x000#14 .w32 0#32)] := by decide

/-- The CMD clause of the same statement: the last legal value and the first illegal one above it. -/
theorem witness_HostWriteStoresWithinTheField_cmd :
    twoFrames.fatal = false ∧ (atPort twoFrames [wr .cmd 4#32]).pending = [.access (.write 0x00C#14 .w32 4#32)] ∧
    decode 4#32 = .ok .writeWords ∧ (∀ i, decode 5#32 ≠ .ok i) := ⟨rfl, rfl, rfl, illegal_five⟩

theorem witness_WrittenFieldsReadBackTruncated :
    Memory.wf twoFrames ∧ 5 < 3 * twoFrames.maxFrames ∧ 1 < twoFrames.maxFrames ∧ Reg.fbuf 4 ≠ .cmd ∧
    Reg.fbuf 4 ≠ Reg.fbuf 5 ∧ Reg.len ≠ .cmd ∧ Reg.len ≠ Reg.operand := by decide

theorem witness_EveryAccessCompletesInOneStep :
    (atPort twoFrames [wrCommand .readWords, .reset]).pending = wrCommand .readWords :: [.reset] ∧
    (atPort twoFrames []).pending = [] := by decide

/-- A state for each clause: a refused offset, a halted block, an illegal value, LEN 0 and 4, LEN 9, LEN 3 for
WRITE_WORDS, and a bad second frame after a good one. -/
theorem witness_FirstApplicableCheckDecides :
    (atPort twoFrames [.access (.write 0x02C#14 .w32 3#32)]).pending = [.access (.write 0x02C#14 .w32 3#32)] ∧
    reach twoFrames.maxFrames 0x02C#14 .w32 = none ∧
    (reach haltedBlock.maxFrames 0x00C#14 .w32 ≠ none ∧ haltedBlock.fatal = true) ∧
    (reach twoFrames.maxFrames 0x00C#14 .w32 = some .cmd ∧ twoFrames.fatal = false) ∧
    (0#16).toNat = 0 ∧ (4#16).toNat % 3 ≠ 0 ∧
    ((9#16).toNat ≠ 0 ∧ (9#16).toNat % 3 = 0 ∧ 3 * twoFrames.maxFrames < (9#16).toNat) ∧
    twoFrames.maxFrames < (3#16).toNat := by decide

theorem witness_FirstApplicableCheckDecides_frames :
    (∀ i, decode 0x5#32 ≠ .ok i) ∧ badSecondFrame.len.toNat % 3 = 0 ∧
    badSecondFrame.len.toNat ≤ 3 * badSecondFrame.maxFrames ∧ 1 < badSecondFrame.len.toNat / 3 ∧
    ¬ frameValid badSecondFrame 1 ∧ (∀ j, j < 1 → frameValid badSecondFrame j) := by
  refine ⟨illegal_five, by decide, by decide, by decide, ?_⟩
  unfold frameValid
  decide +kernel

theorem witness_RepeatingAnAccessChangesNothingMore :
    ∃ a, (atPort twoFrames [wrCommand .readWords, wrCommand .readWords]).pending = .access a :: .access a :: [] ∧
      ∃ c, (atPort twoFrames [rd .len, rd .len]).pending = .access c :: .access c :: [] ∧
        ∃ off width, c = .read off width := ⟨_, rfl, _, rfl, _, _, rfl⟩

/-- One step for each clause: OPERAND, LEN, a command's RESULT, the last entry of each buffer, and WBUF by a command. -/
theorem witness_EachRegisterHasItsWriters :
    (wr .operand 1#32).isAccess = true ∧
    (∃ t, step (atPort twoFrames [wr .operand 1#32]) = .next t ∧ t.block.operand ≠ twoFrames.operand) ∧
    (∃ t, step (atPort twoFrames [wr .len 1#32]) = .next t ∧ t.block.len ≠ twoFrames.len) ∧
    (∃ t, step (atPort twoFrames [wrCommand .crcCompute]) = .next t ∧ t.block.result ≠ twoFrames.result) ∧
    (∃ t, step (atPort twoFrames [wr (.fbuf 5) 1#32]) = .next t ∧ t.block.fbuf ≠ twoFrames.fbuf) ∧
    (∃ t, step (atPort twoFrames [wr (.wbuf 1) 1#32]) = .next t ∧ t.block.wbuf ≠ twoFrames.wbuf) ∧
    (∃ t, step (atPort twoFrames [wrCommand .readWords]) = .next t ∧ t.block.wbuf ≠ twoFrames.wbuf) :=
  ⟨rfl, ⟨_, rfl, by decide +kernel⟩, ⟨_, rfl, by decide +kernel⟩, ⟨_, rfl, by decide +kernel⟩,
    ⟨_, rfl, by decide +kernel⟩, ⟨_, rfl, by decide +kernel⟩, ⟨_, rfl, by decide +kernel⟩⟩

/-- A code that changes, a halt that begins and a halt that a reset ends; a command run in a halted state. -/
theorem witness_StatusIsWrittenByCommandsAndClearedByReset :
    (∃ t, exec .crcCompute (atPort haltedBlock []) = .next t) ∧ haltedBlock.fatal = true ∧
    (∃ t, step (atPort twoFrames [wrCommand .crcCompute]) = .next t ∧ t.block.code ≠ twoFrames.code) ∧
    (∃ t, step (atPort { twoFrames with len := 4#16 } [wrCommand .readWords]) = .next t ∧ t.block.fatal = true) ∧
    (∃ t, step (atPort haltedBlock [.reset]) = .next t ∧ t.block.fatal = false) :=
  ⟨⟨_, rfl⟩, rfl, ⟨_, rfl, by decide +kernel⟩, ⟨_, rfl, rfl⟩, ⟨_, rfl, rfl⟩⟩

/-- A frame mismatch that changes ERR_CRC and ERR_POS, and a fatal entry that changes FATAL_LEN. -/
theorem witness_ErrorRegistersChangeOnlyWithTheirError :
    (wrCommand .readWords).isAccess = true ∧
    (∃ t, step (atPort badSecondFrame [wrCommand .readWords]) = .next t ∧
      t.block.errCrc ≠ badSecondFrame.errCrc ∧ t.block.errPos ≠ badSecondFrame.errPos) ∧
    (∃ t, step (atPort { twoFrames with len := 4#16 } [wrCommand .readWords]) = .next t ∧
      t.block.fatalLen ≠ twoFrames.fatalLen) :=
  ⟨rfl, ⟨_, rfl, by decide +kernel⟩, ⟨_, rfl, by decide +kernel⟩⟩

/-- READ_WORDS of one frame leaves WBUF[1]; WRITE_WORDS of one word leaves FBUF[3]. -/
theorem witness_BufferEntriesStayUntilWritten :
    Memory.wf { twoFrames with len := 3#16 } ∧ (wrCommand .readWords).isAccess = true ∧
    (3#16).toNat / 3 ≤ 1 ∧ 3 * (1#16).toNat ≤ 3 ∧
    (∃ t, step (atPort { twoFrames with len := 3#16 } [wrCommand .readWords]) = .next t) ∧
    (∃ t, step (atPort { twoFrames with len := 1#16 } [wrCommand .writeWords]) = .next t) :=
  ⟨by decide, rfl, by decide, by decide, ⟨_, rfl⟩, ⟨_, rfl⟩⟩

theorem witness_HaltLastsUntilReset :
    haltedBlock.fatal = true ∧
    (atPort haltedBlock [wr .len 3#32, rd .len]).pending = .access (.write 0x018#14 .w32 3#32) :: [rd .len] ∧
    (atPort haltedBlock [rd .len]).pending = .access (.read 0x018#14 .w32) :: [] ∧
    (∀ e ∈ (atPort haltedBlock [wr .len 3#32, rd .len]).pending.take 2, e.isAccess = true) := by decide

theorem witness_ReadsOfAnotherMasterDoNotInterfere :
    Interleaving [wrCommand .crcCompute] [rd .result] [rd .result, wrCommand .crcCompute] ∧
    (∀ e ∈ [rd .result], e.isRead = true) := ⟨.right _ (.left _ .nil), by decide⟩

theorem witness_PseudoOperationsRunTheirExpansion :
    twoFrames.fatal = false ∧ Memory.wf twoFrames ∧ 3 + [0xBE#8, 0xEF#8, 0x92#8].length ≤ 3 * twoFrames.maxFrames ∧
    (atPort twoFrames (expand (.compute 0xBEEF#16))).pending = expand (.compute 0xBEEF#16) ++ [] ∧
    (atPort twoFrames (expand (.validate 0xBE#8 0xEF#8 0x92#8))).pending =
      expand (.validate 0xBE#8 0xEF#8 0x92#8) ++ [] ∧
    (atPort twoFrames (expand (.loadF 3 [0xBE#8, 0xEF#8, 0x92#8]))).pending =
      expand (.loadF 3 [0xBE#8, 0xEF#8, 0x92#8]) ++ [] := by decide

theorem witness_ResetLeavesTheStatedValues :
    (atPort haltedBlock [.reset]).pending = .reset :: [] ∧ HostEvent.reset.isAccess = false ∧
    (HostEvent.resetDuringCommand 3#32).isAccess = false ∧
    (∃ t, step (atPort haltedBlock [.reset]) = .next t ∧ t.block.fatal = false ∧ t.block.maxFrames ≤ 341) ∧
    haltedBlock.fatal = true := ⟨rfl, rfl, rfl, ⟨_, rfl, rfl, by decide⟩, rfl⟩

theorem witness_ResetDuringACommandAbandonsIt :
    (atPort twoFrames [.resetDuringCommand 3#32]).pending = .resetDuringCommand 3#32 :: [] ∧
    5 < 3 * twoFrames.maxFrames ∧ 1 < twoFrames.maxFrames := by decide

/-- The invariant holds of a block with frames in it. -/
theorem twoFrames_inv : twoFrames.Inv where
  memory := by decide
  codeLegal := by decide
  haltedIff := by decide
  fatalLength := by decide
  errorPosition := ⟨0, by decide, by decide⟩
  errorCrc := by decide
  afterCrcMismatch := by decide
  afterFrameMismatch := by decide
  resultBound := by decide
  untouched := by decide

theorem witness_EveryStepKeepsTheInvariant :
    (atPort twoFrames [wrCommand .readWords]).block.Inv ∧
    ∃ t, step (atPort twoFrames [wrCommand .readWords]) = .next t := ⟨twoFrames_inv, _, rfl⟩

/-- The reset state's buffers have their form (R8, R30, R31). -/
theorem reset_memory_wf : Memory.wf State.reset.block := Memory.wf_reset

end Sys2Proof.Tests
end

/-! PROOFS. The block's invariant: what a reset gives, one lemma for each kind of outcome a command has, then the
commands, the host write and the step. -/

namespace Sys2Proof.Machine

/-! ### Bit fields of ERR_CRC and ERR_POS -/

theorem errCrcWord_computed (expected computed : Byte) :
    (errCrcWord expected computed).extractLsb' 8 8 = computed :=
  BitVec.extractLsb'_append_eq_left

theorem errCrcWord_expected (expected computed : Byte) :
    (errCrcWord expected computed).extractLsb' 0 8 = expected :=
  BitVec.extractLsb'_append_eq_right

theorem errCrcWord_fields_ne {expected computed : Byte} (h : computed ≠ expected) :
    (errCrcWord expected computed).extractLsb' 8 8 ≠ (errCrcWord expected computed).extractLsb' 0 8 := by
  rwa [errCrcWord_computed, errCrcWord_expected]

/-- A CRC in RESULT is within the bound R26 gives it. -/
theorem zext_byte_le (c : Byte) : (c.setWidth 32).toNat ≤ 255 := by
  rw [BitVec.toNat_setWidth_of_le (by decide)]
  omega

/-! ### Reset -/

/-- R97: the reset state of a legal build meets the invariant, whatever its buffers draw. -/
theorem inv_atReset {maxFrames : Nat} (h1 : 1 ≤ maxFrames) (h2 : maxFrames ≤ Config.maxCapacity)
    (epoch : Nat) : (Block.atReset maxFrames epoch).Inv where
  memory := Memory.wf_atReset h1 h2 epoch
  codeLegal := by simp [Block.atReset]
  haltedIff := by simp [Block.atReset, codePrecondition]
  fatalLength := by simp [Block.atReset]
  errorPosition := ⟨0, h1, rfl⟩
  errorCrc := .inl rfl
  afterCrcMismatch := by simp [Block.atReset, codeCrcMismatch]
  afterFrameMismatch := by simp [Block.atReset, codeFrameMismatch]
  resultBound := .inl (Nat.zero_le 255)
  untouched := by simp [Block.atReset]

/-- A reset gives the reset state of the same, legal, build. -/
theorem inv_applyReset {s : State} (h : s.block.Inv) (rest : List HostEvent) (r : Option Response) :
    (applyReset s rest r).block.Inv := by
  obtain ⟨hpos, hcap, -, -⟩ := h.memory
  exact inv_atReset hpos hcap (s.epoch + 1)

/-! ### Writes that leave what only commands write -/

variable {b : Block}

/-- R29: FATAL_LEN is still 0 in a block that runs. -/
theorem Block.Inv.fatalLen_eq_zero (h : b.Inv) (hrun : b.fatal = false) : b.fatalLen = 0#16 := by
  simpa [hrun] using h.fatalLength

/-- The invariant of a running block asks nothing of OPERAND and LEN, and of the buffers only their sizes. -/
theorem Block.Inv.of_registers_kept {c : Block} (h : b.Inv) (hrun : b.fatal = false) (hmem : Memory.wf c)
    (hkeep : c.maxFrames = b.maxFrames ∧ c.code = b.code ∧ c.fatal = b.fatal ∧ c.result = b.result ∧
      c.errCrc = b.errCrc ∧ c.errPos = b.errPos ∧ c.fatalLen = b.fatalLen) : c.Inv := by
  obtain ⟨hmax, hcode, hfatal, hresult, hcrc, hpos, hflen⟩ := hkeep
  exact {
    memory := hmem
    codeLegal := hcode ▸ h.codeLegal
    haltedIff := by rw [hfatal, hcode]; exact h.haltedIff
    fatalLength := by simp [hfatal, hrun, hflen, h.fatalLen_eq_zero hrun]
    errorPosition := by rw [hmax, hpos]; exact h.errorPosition
    errorCrc := hcrc ▸ h.errorCrc
    afterCrcMismatch := by rw [hcode, hpos, hresult, hcrc]; exact h.afterCrcMismatch
    afterFrameMismatch := by rw [hcode, hresult, hcrc]; exact h.afterFrameMismatch
    resultBound := by rw [hresult, hmax]; exact h.resultBound
    untouched := by rw [hcode, hresult, hcrc, hpos]; exact h.untouched }

/-- R39: a host write to a register other than CMD. -/
theorem inv_writeReg (h : b.Inv) (hrun : b.fatal = false) (r : Reg) (v : Word32) : (writeReg b r v).Inv :=
  h.of_registers_kept hrun (Memory.wf_writeReg h.memory r v) (writeReg_keeps b r v)

/-- R74: the commit pass. -/
theorem inv_commitFrames (h : b.Inv) (hrun : b.fatal = false) (n k : Nat) : (commitFrames n k b).Inv := by
  refine h.of_registers_kept hrun (Memory.wf_commitFrames h.memory n k) ?_
  rw [commitFrames_only_wbuf]
  simp

/-- R76: the encoding loop. -/
theorem inv_emitFrames (h : b.Inv) (hrun : b.fatal = false) (n k : Nat) : (emitFrames n k b).Inv := by
  refine h.of_registers_kept hrun (Memory.wf_emitFrames h.memory n k) ?_
  rw [emitFrames_only_fbuf]
  simp

/-! ### The outcomes of a command -/

/-- R22: a running block under a code other than PRECONDITION. -/
theorem fatal_iff_of_running {code : BitVec 4} (hrun : b.fatal = false) (hcode : code ≠ codePrecondition) :
    b.fatal = true ↔ code = codePrecondition := by
  simp [hrun, hcode]

/-- R57, R83: ILLEGAL_CMD and LEN_RANGE write the code alone, and the invariant asks nothing of the other registers
under these codes. -/
theorem inv_setCode_of_refused (h : b.Inv) (hrun : b.fatal = false) {code : BitVec 4}
    (hcode : code = codeIllegalCmd ∨ code = codeLenRange) : (b.setCode code).Inv := by
  have hne : code.toNat ≤ 7 ∧ code ≠ 4#4 ∧ code ≠ codePrecondition ∧ code ≠ codeCrcMismatch ∧
      code ≠ codeFrameMismatch ∧ code ≠ codeNone := by
    obtain rfl | rfl := hcode <;> decide
  obtain ⟨hle, hne4, hpre, hcrc, hframe, hnone⟩ := hne
  exact { h with
    codeLegal := ⟨hle, hne4⟩
    haltedIff := fatal_iff_of_running hrun hpre
    afterCrcMismatch := fun hc => absurd hc hcrc
    afterFrameMismatch := fun hc => absurd hc hframe
    untouched := fun hc => absurd hc hnone }

/-- R68, R69, R74, R76: success, with a result R26 allows. -/
theorem inv_succeed (h : b.Inv) (hrun : b.fatal = false) {r : Word32}
    (hr : r.toNat ≤ 255 ∨ r.toNat ≤ 3 * b.maxFrames) : (succeed b r).Inv :=
  { h with
    codeLegal := by simp [succeed_eq]
    haltedIff := fatal_iff_of_running (code := codeOk) hrun (by decide)
    afterCrcMismatch := by simp [succeed_eq, codeCrcMismatch]
    afterFrameMismatch := by simp [succeed_eq, codeFrameMismatch]
    resultBound := hr
    untouched := by simp [succeed_eq, codeNone] }

/-- R84: the fatal entry, for the length that LEN holds. -/
theorem inv_raiseFatal (h : b.Inv) (hbad : badLength (lenCount b) = true) : (raiseFatal b b.len).Inv :=
  { h with
    codeLegal := by simp [raiseFatal_eq]
    haltedIff := by simp [raiseFatal_eq, codePrecondition]
    fatalLength := by simpa [raiseFatal_eq, lenCount] using hbad
    afterCrcMismatch := by simp [raiseFatal_eq, codeCrcMismatch]
    afterFrameMismatch := by simp [raiseFatal_eq, codeFrameMismatch]
    untouched := by simp [raiseFatal_eq, codeNone] }

/-- R69: a CRC_MISMATCH is reported at frame 0, with the computed CRC in RESULT. -/
theorem inv_report_crcMismatch (h : b.Inv) (hrun : b.fatal = false) {e c : Byte} (hne : c ≠ e) :
    (reportMismatch (b.setResult (c.setWidth 32)) codeCrcMismatch 0 e c).Inv :=
  { h with
    codeLegal := by simp [reportMismatch_eq, codeCrcMismatch]
    haltedIff := fatal_iff_of_running (code := codeCrcMismatch) hrun (by decide)
    errorPosition := ⟨0, h.memory.1, rfl⟩
    errorCrc := .inr (errCrcWord_fields_ne hne)
    afterCrcMismatch := fun _ =>
      ⟨rfl, congrArg (BitVec.setWidth 32) (errCrcWord_computed e c).symm, errCrcWord_fields_ne hne⟩
    afterFrameMismatch := by simp [reportMismatch_eq, codeCrcMismatch, codeFrameMismatch]
    resultBound := .inl (zext_byte_le c)
    untouched := by simp [reportMismatch_eq, codeCrcMismatch, codeNone] }

/-- R74: a FRAME_MISMATCH is reported at a frame the buffer has, with 0 in RESULT. -/
theorem inv_report_frameMismatch (h : b.Inv) (hrun : b.fatal = false) {k : Nat} (hk : k < b.maxFrames)
    {e c : Byte} (hne : c ≠ e) : ((reportMismatch b codeFrameMismatch k e c).setResult 0#32).Inv :=
  { h with
    codeLegal := by simp [reportMismatch_eq, codeFrameMismatch]
    haltedIff := fatal_iff_of_running (code := codeFrameMismatch) hrun (by decide)
    errorPosition := ⟨k, hk, rfl⟩
    errorCrc := .inr (errCrcWord_fields_ne hne)
    afterCrcMismatch := by simp [reportMismatch_eq, codeCrcMismatch, codeFrameMismatch]
    afterFrameMismatch := fun _ => ⟨rfl, errCrcWord_fields_ne hne⟩
    resultBound := .inl (Nat.zero_le 255)
    untouched := by simp [reportMismatch_eq, codeFrameMismatch, codeNone] }

/-! ### The commands -/

theorem inv_crcComputeBlock (h : b.Inv) (hrun : b.fatal = false) : (crcComputeBlock b).Inv :=
  inv_succeed h hrun (.inl (zext_byte_le _))

theorem inv_crcValidateBlock (h : b.Inv) (hrun : b.fatal = false) : (crcValidateBlock b).Inv := by
  unfold crcValidateBlock
  split
  next => exact inv_succeed h hrun (.inl (zext_byte_le _))
  next hbad =>
    obtain ⟨-, rfl, hne⟩ := validate_error hbad
    exact inv_report_crcMismatch h hrun hne

/-- A transfer that succeeds with the count `n` of what it moved, which the capacity bounds. -/
theorem inv_succeed_count (h : b.Inv) (hrun : b.fatal = false) {n : Nat} (hn : n ≤ 3 * b.maxFrames) :
    (succeed b (BitVec.ofNat 32 n)).Inv :=
  inv_succeed h hrun (.inr (BitVec.toNat_ofNat n 32 ▸ (Nat.mod_le n _).trans hn))

/-- READ_WORDS from the capacity check on: it looks only at frames below LEN.COUNT, which the buffer has. -/
theorem inv_readWordsWithin (h : b.Inv) (hrun : b.fatal = false) : (readWordsWithin b).Inv := by
  unfold readWordsWithin
  split
  next => exact inv_setCode_of_refused h hrun (.inr rfl)
  next hcap =>
    have hframes : lenCount b / 3 ≤ b.maxFrames := by omega
    split
    next bad hbad =>
      obtain ⟨-, hidx, -, -, -, -, hne⟩ := firstBadFrame_some hbad
      exact inv_report_frameMismatch h hrun (by omega) hne
    next =>
      have hkeep := commitFrames_only_wbuf (lenCount b / 3) 0 b
      exact inv_succeed_count (inv_commitFrames h hrun _ 0) (by rw [hkeep]; exact hrun)
        (by rw [hkeep]; simp only; omega)

theorem inv_readWordsBlock (h : b.Inv) (hrun : b.fatal = false) : (readWordsBlock b).Inv := by
  unfold readWordsBlock
  split
  next hbad => exact inv_raiseFatal h hbad
  next => exact inv_readWordsWithin h hrun

theorem inv_writeWordsBlock (h : b.Inv) (hrun : b.fatal = false) : (writeWordsBlock b).Inv := by
  unfold writeWordsBlock
  split
  next => exact inv_setCode_of_refused h hrun (.inr rfl)
  next hcap =>
    have hkeep := emitFrames_only_fbuf (lenCount b) 0 b
    exact inv_succeed_count (inv_emitFrames h hrun _ 0) (by rw [hkeep]; exact hrun)
      (by rw [hkeep]; simp only; omega)

theorem inv_commandBlock (h : b.Inv) (hrun : b.fatal = false) (i : Instr) : (commandBlock i b).Inv := by
  cases i with
  | crcCompute => exact inv_crcComputeBlock h hrun
  | crcValidate => exact inv_crcValidateBlock h hrun
  | readWords => exact inv_readWordsBlock h hrun
  | writeWords => exact inv_writeWordsBlock h hrun

/-! ### The host write and the step -/

/-- An accepted write to a running block: a command, an illegal command, or a stored field. -/
theorem inv_writtenBlock (h : b.Inv) (hrun : b.fatal = false) (r : Reg) (v : Word32) :
    (writtenBlock b r v).Inv := by
  unfold writtenBlock
  split
  next =>
    split
    next i _ => exact inv_commandBlock h hrun i
    next => exact inv_setCode_of_refused h hrun (.inl rfl)
  next => exact inv_writeReg h hrun r v

/-- Whatever event is at the head of the port, the step that serves it leaves a block that meets the invariant. -/
theorem step_keeps_inv {s : State} (h : s.block.Inv) : ∃ t, step s = .next t ∧ t.block.Inv := by
  cases hp : s.pending with
  | nil => exact ⟨s, step_idle hp, h⟩
  | cons e rest =>
    cases e with
    | reset => exact ⟨_, step_reset hp, inv_applyReset h rest _⟩
    | resetDuringCommand v => exact ⟨_, step_resetDuringCommand hp, inv_applyReset h rest _⟩
    | access a =>
      cases a with
      | read off width => exact ⟨_, step_read hp, h⟩
      | write off width v =>
        refine ⟨_, step_write hp, ?_⟩
        split
        next => exact h
        next r _ =>
          rw [State.setBlock_block]
          split
          next => exact h
          next hrun => exact inv_writtenBlock h (Bool.eq_false_of_not_eq_true hrun) r v

/-- Settles O52, by cases on the event served: a reset, an access that leaves the block, or a write to a running block,
each of whose outcomes has its own lemma above. -/
theorem everyStepKeepsTheInvariant : Obligations.EveryStepKeepsTheInvariant := by
  intro s t h hstep
  obtain ⟨u, hu, hinv⟩ := step_keeps_inv h
  cases hu.symm.trans hstep
  exact hinv

end Sys2Proof.Machine

/-! PROOFS. The state and who writes it: what one step can do to the block, said once for commands, for accesses and
for resets, and from it the statements about the registers, STATUS, the error registers and the buffers. -/

namespace Sys2Proof.Machine

/-! ### Words, offsets and fields -/

/-- R53: a CMD value that spells a command is that command's encoding. -/
theorem eq_encode_of_decode_ok {v : Word32} {i : Instr} (h : decode v = .ok i) : v = encode i := by
  unfold decode at h
  split at h
  next => cases h
  next hres =>
    split at h
    next j hj =>
      cases h
      rw [encode, ← opcodeInstr_some hj]
      exact eq_of_reserved_zero (not_not.1 hres)
    next => cases h

/-- R52: the command of a table word is the one its CMD value spells. -/
theorem decode_tableWord {nbits w : Nat} {i : Instr} (h : decodeTableWord nbits w = some i) :
    decode (tableWord nbits w) = .ok i := by
  unfold decodeTableWord at h
  split at h
  next =>
    unfold tableWord
    generalize decode (BitVec.ofNat 32 (w % 2 ^ nbits)) = d at h ⊢
    cases d with
    | ok j => exact congrArg Except.ok (Option.some.inj h)
    | error x => cases h
  next => cases h

/-- R35: the register in a slot has the slot's offset. -/
theorem regOffset_of_regAtSlot {m n : Nat} {r : Reg} (h : regAtSlot m n = some r) :
    regOffset r = BitVec.ofNat 14 (4 * n) := by
  unfold regAtSlot at h
  split at h
  case h_12 =>
    split at h
    next hf =>
      cases h
      rw [regOffset, show 0x1000 + 4 * (n - 0x400) = 4 * n by omega]
    next =>
      split at h
      next hw =>
        cases h
        rw [regOffset, show 0x2000 + 4 * (n - 0x800) = 4 * n by omega]
      next => cases h
  all_goals cases h; rfl

/-- R35, R36: an accepted access has the offset of the register it reaches. -/
theorem eq_regOffset_of_reach {m : Nat} {off : Offset} {r : Reg} (h : reach m off .w32 = some r) :
    off = regOffset r := by
  simp only [reach, regAt] at h
  split at h
  next halign =>
    rw [regOffset_of_regAtSlot h, Nat.mul_div_cancel' (Nat.dvd_of_mod_eq_zero halign), BitVec.ofNat_toNat,
      BitVec.setWidth_eq]
  next => cases h

/-- R15: the low `n` bits of a written value, read back with the reserved bits 0, are the value masked to `n` bits. -/
theorem zext_low_eq_mask (n : Nat) (v : Word32) :
    (v.extractLsb' 0 n).setWidth 32 = v &&& BitVec.ofNat 32 (2 ^ n - 1) := by
  apply BitVec.eq_of_getLsbD_eq
  intro j hj
  simp [hj, BitVec.getLsbD_ofNat, Nat.testBit_two_pow_sub_one, Bool.and_comm, -BitVec.getLsbD_eq_getElem]

/-- R19: CONFIG and its fields POLY, INIT, XOROUT and the reflection byte. -/
theorem configWord_fields :
    Config.configWord = 0x0000FF31#32 ∧ Config.configWord.extractLsb' 0 8 = 0x31#8 ∧
    Config.configWord.extractLsb' 8 8 = 0xFF#8 ∧ Config.configWord.extractLsb' 16 8 = 0x00#8 ∧
    Config.configWord.extractLsb' 24 8 = 0x00#8 := by
  decide

/-- R20: a legal capacity fits the MAX_FRAMES field of CAPACITY. -/
theorem capacityWord_toNat {b : Block} (h : Memory.wf b) : (capacityWord b).toNat = b.maxFrames := by
  obtain ⟨-, hcap, -, -⟩ := h
  simp only [Config.maxCapacity] at hcap
  simp only [capacityWord, BitVec.toNat_setWidth, BitVec.toNat_ofNat]
  omega

/-! ### STATUS (R22) -/

theorem statusWord_code (b : Block) : (statusWord b).extractLsb' 0 4 = b.code :=
  BitVec.extractLsb'_append_eq_right

theorem statusWord_fatal (b : Block) : (statusWord b).getLsbD 4 = b.fatal := by
  rw [statusWord, BitVec.getLsbD_append, BitVec.getLsbD_append]
  simp

theorem statusWord_reserved (b : Block) : (statusWord b).extractLsb' 5 27 = 0#27 := by
  ext j hj
  have habove : ¬ 5 + j < 4 ∧ ¬ 5 + j - 4 < 1 := by omega
  rw [BitVec.getElem_extractLsb', statusWord, BitVec.getLsbD_append, BitVec.getLsbD_append]
  simp [habove]

/-! ### What a reading keeps when another register is written -/

theorem readReg_setOperand_other (b : Block) (x : BitVec 24) {q : Reg} (hq : .operand ≠ q) :
    readReg (b.setOperand x) q = readReg b q := by
  cases q with
  | operand => exact absurd rfl hq
  | _ => rfl

theorem readReg_setLen_other (b : Block) (x : Word16) {q : Reg} (hq : .len ≠ q) :
    readReg (b.setLen x) q = readReg b q := by
  cases q with
  | len => exact absurd rfl hq
  | _ => rfl

theorem readReg_setFbufAt_other (b : Block) {i : Nat} (x : Byte) {q : Reg} (hq : .fbuf i ≠ q) :
    readReg (setFbufAt b i x) q = readReg b q := by
  cases q with
  | fbuf j => exact congrArg (BitVec.setWidth 32) (fbufAt_setFbufAt_other b i j x fun h => hq (h ▸ rfl))
  | _ => rfl

theorem readReg_setWbufAt_other (b : Block) {j : Nat} (x : Word16) {q : Reg} (hq : .wbuf j ≠ q) :
    readReg (setWbufAt b j x) q = readReg b q := by
  cases q with
  | wbuf i => exact congrArg (BitVec.setWidth 32) (wbufAt_setWbufAt_other b j i x fun h => hq (h ▸ rfl))
  | _ => rfl

/-- R39: storing into a register leaves the reading of every other register. -/
theorem readReg_writeReg_other (b : Block) (v : Word32) {r q : Reg} (hq : r ≠ q) :
    readReg (writeReg b r v) q = readReg b q := by
  cases r with
  | operand => exact readReg_setOperand_other b _ hq
  | len => exact readReg_setLen_other b _ hq
  | fbuf i => exact readReg_setFbufAt_other b _ hq
  | wbuf j => exact readReg_setWbufAt_other b _ hq
  | _ => rfl

/-! ### The loops leave the entries above the length -/

/-- R74: the commit pass over frames `k` to `k + n - 1` leaves the words from `k + n` on. -/
theorem wbufAt_commitFrames_above {n k j : Nat} (b : Block) (h : k + n ≤ j) :
    wbufAt (commitFrames n k b) j = wbufAt b j := by
  induction n generalizing k b with
  | zero => rfl
  | succ n ih =>
    rw [commitFrames, ih _ (by omega)]
    exact wbufAt_setWbufAt_other b k j _ (by omega)

theorem fbufAt_emitFrame_above {k i : Nat} (b : Block) (h : 3 * k + 3 ≤ i) :
    fbufAt (emitFrame b k) i = fbufAt b i := by
  rw [emitFrame, fbufAt_setFbufAt_other _ _ _ _ (by omega), fbufAt_setFbufAt_other _ _ _ _ (by omega),
    fbufAt_setFbufAt_other _ _ _ _ (by omega)]

/-- R76: the encoding loop over words `k` to `k + n - 1` leaves the bytes from `3 * (k + n)` on. -/
theorem fbufAt_emitFrames_above {n k i : Nat} (b : Block) (h : 3 * (k + n) ≤ i) :
    fbufAt (emitFrames n k b) i = fbufAt b i := by
  induction n generalizing k b with
  | zero => rfl
  | succ n ih =>
    rw [emitFrames, ih _ (by omega)]
    exact fbufAt_emitFrame_above b (by omega)

/-! ### What a command can do -/

/-- The outcomes a command has, with the block each leaves: `CommandOutcome b i c` lists every way command `i` can
take block `b` to `c` (R68, R69, R74, R76, R83, R84). -/
inductive CommandOutcome (b : Block) : Instr → Block → Prop
  /-- CRC_COMPUTE and a CRC_VALIDATE that finds no error: only RESULT and CODE. -/
  | computed {i : Instr} (r : Word32) : CommandOutcome b i (succeed b r)
  /-- CRC_MISMATCH or FRAME_MISMATCH. -/
  | mismatch {i : Instr} (r : Word32) {code : BitVec 4} (k : Nat) (e c : Byte) (hcode : code = 2#4 ∨ code = 3#4) :
    CommandOutcome b i (reportMismatch (b.setResult r) code k e c)
  /-- LEN_RANGE. -/
  | outOfRange {i : Instr} : CommandOutcome b i (lenRange b)
  /-- The fatal entry of READ_WORDS. -/
  | fatalEntry (hbad : badLength (lenCount b) = true) : CommandOutcome b .readWords (raiseFatal b b.len)
  /-- READ_WORDS that succeeds: WBUF as before from LEN.COUNT/3 on. -/
  | committed (w : List Word16) (r : Word32)
    (hkeep : ∀ j, lenCount b / 3 ≤ j → wbufAt (b.setWbuf w) j = wbufAt b j) :
    CommandOutcome b .readWords (succeed (b.setWbuf w) r)
  /-- WRITE_WORDS that succeeds: FBUF as before from 3*LEN.COUNT on. -/
  | emitted (f : List Byte) (r : Word32)
    (hkeep : ∀ i, 3 * lenCount b ≤ i → fbufAt (b.setFbuf f) i = fbufAt b i) :
    CommandOutcome b .writeWords (succeed (b.setFbuf f) r)

theorem crcValidateBlock_outcome (b : Block) : CommandOutcome b .crcValidate (crcValidateBlock b) := by
  unfold crcValidateBlock
  split
  next => exact .computed _
  next e c _ => exact .mismatch _ 0 e c (.inl rfl)

theorem readWordsWithin_outcome (b : Block) : CommandOutcome b .readWords (readWordsWithin b) := by
  unfold readWordsWithin
  split
  next => exact .outOfRange
  next =>
    split
    next bad _ => exact .mismatch 0#32 bad.index bad.expected bad.computed (.inr rfl)
    next =>
      rw [commitFrames_only_wbuf]
      exact .committed _ _ fun j hj => wbufAt_commitFrames_above b (by omega)

theorem readWordsBlock_outcome (b : Block) : CommandOutcome b .readWords (readWordsBlock b) := by
  unfold readWordsBlock
  split
  next hbad => exact .fatalEntry hbad
  next => exact readWordsWithin_outcome b

theorem writeWordsBlock_outcome (b : Block) : CommandOutcome b .writeWords (writeWordsBlock b) := by
  unfold writeWordsBlock
  split
  next => exact .outOfRange
  next =>
    rw [emitFrames_only_fbuf]
    exact .emitted _ _ fun i hi => fbufAt_emitFrames_above b (by omega)

theorem commandBlock_outcome (i : Instr) (b : Block) : CommandOutcome b i (commandBlock i b) := by
  cases i with
  | crcCompute => exact .computed _
  | crcValidate => exact crcValidateBlock_outcome b
  | readWords => exact readWordsBlock_outcome b
  | writeWords => exact writeWordsBlock_outcome b

namespace CommandOutcome

variable {b c : Block} {i : Instr}

/-- R16: no command writes OPERAND, LEN or the hardwired CAPACITY. -/
theorem operands_kept (h : CommandOutcome b i c) :
    c.maxFrames = b.maxFrames ∧ c.operand = b.operand ∧ c.len = b.len := by
  cases h <;> exact ⟨rfl, rfl, rfl⟩

/-- R16: of the commands only WRITE_WORDS writes FBUF. -/
theorem fbuf_kept (h : CommandOutcome b i c) (hi : i ≠ .writeWords) : c.fbuf = b.fbuf := by
  cases h with
  | emitted => exact absurd rfl hi
  | _ => rfl

/-- R16: of the commands only READ_WORDS writes WBUF. -/
theorem wbuf_kept (h : CommandOutcome b i c) (hi : i ≠ .readWords) : c.wbuf = b.wbuf := by
  cases h with
  | committed => exact absurd rfl hi
  | _ => rfl

/-- R32, R76: WRITE_WORDS leaves FBUF from 3*LEN.COUNT on. -/
theorem fbufAt_kept (h : CommandOutcome b i c) {j : Nat} (hj : i ≠ .writeWords ∨ 3 * lenCount b ≤ j) :
    fbufAt c j = fbufAt b j := by
  cases h with
  | emitted f r hkeep => exact hkeep j (hj.resolve_left (absurd rfl))
  | _ => rfl

/-- R32, R74: READ_WORDS leaves WBUF from LEN.COUNT/3 on. -/
theorem wbufAt_kept (h : CommandOutcome b i c) {j : Nat} (hj : i ≠ .readWords ∨ lenCount b / 3 ≤ j) :
    wbufAt c j = wbufAt b j := by
  cases h with
  | committed w r hkeep => exact hkeep j (hj.resolve_left (absurd rfl))
  | _ => rfl

/-- R84: a command leaves FATAL and FATAL_LEN, or it is READ_WORDS entering the halt. -/
theorem fatal_kept_or_entered (h : CommandOutcome b i c) :
    (c.fatal = b.fatal ∧ c.fatalLen = b.fatalLen) ∨
      (i = .readWords ∧ badLength (lenCount b) = true ∧ c.fatal = true ∧ c.fatalLen = b.len) := by
  cases h with
  | fatalEntry hbad => exact .inr ⟨rfl, hbad, rfl, rfl⟩
  | _ => exact .inl ⟨rfl, rfl⟩

/-- R27, R28: a command leaves ERR_CRC and ERR_POS, or its code is CRC_MISMATCH or FRAME_MISMATCH. -/
theorem errors_kept_or_mismatch (h : CommandOutcome b i c) :
    (c.errCrc = b.errCrc ∧ c.errPos = b.errPos) ∨ c.code = 2#4 ∨ c.code = 3#4 := by
  cases h with
  | mismatch _ _ _ _ hcode => exact .inr hcode
  | _ => exact .inl ⟨rfl, rfl⟩

end CommandOutcome

/-! ### What an access can do -/

/-- The effects an access has on the block: `AccessEffect b e c` lists every way a step that serves access `e` can take
block `b` to `c` (R36 to R39, R56, R57, R85). -/
inductive AccessEffect (b : Block) : HostEvent → Block → Prop
  /-- A read, a refused access, a write to a halted block or to a read-only register. -/
  | unchanged (e : HostEvent) : AccessEffect b e b
  | operand (v : Word32) (hrun : b.fatal = false) : AccessEffect b (wr .operand v) (b.setOperand (v.extractLsb' 0 24))
  | len (v : Word32) (hrun : b.fatal = false) : AccessEffect b (wr .len v) (b.setLen (v.extractLsb' 0 16))
  | fbuf (i : Nat) (v : Word32) (hrun : b.fatal = false)
    (hreach : reach b.maxFrames (regOffset (.fbuf i)) .w32 = some (.fbuf i)) :
    AccessEffect b (wr (.fbuf i) v) (setFbufAt b i (v.extractLsb' 0 8))
  | wbuf (j : Nat) (v : Word32) (hrun : b.fatal = false)
    (hreach : reach b.maxFrames (regOffset (.wbuf j)) .w32 = some (.wbuf j)) :
    AccessEffect b (wr (.wbuf j) v) (setWbufAt b j (v.extractLsb' 0 16))
  /-- A CMD write of a command to a running block. -/
  | command (i : Instr) (c : Block) (hrun : b.fatal = false) (h : CommandOutcome b i c) :
    AccessEffect b (wrCommand i) c
  /-- A CMD write that spells no command, to a running block. -/
  | illegal (v : Word32) (hrun : b.fatal = false) : AccessEffect b (wr .cmd v) (illegalCommand b)

/-- A write to register `r` of a running block has one of the effects listed. -/
theorem writtenBlock_effect {b : Block} {r : Reg} (v : Word32)
    (hreach : reach b.maxFrames (regOffset r) .w32 = some r) (hrun : b.fatal = false) :
    AccessEffect b (wr r v) (writtenBlock b r v) := by
  cases r with
  | cmd =>
    simp only [writtenBlock, if_true]
    split
    next i hi =>
      obtain rfl := eq_encode_of_decode_ok hi
      exact .command i _ hrun (commandBlock_outcome i b)
    next => exact .illegal v hrun
  | operand => exact .operand v hrun
  | len => exact .len v hrun
  | fbuf i => exact .fbuf i v hrun hreach
  | wbuf j => exact .wbuf j v hrun hreach
  | _ => exact .unchanged _

/-- A step that serves an access has one of the effects listed. -/
theorem step_access_effect {s t : State} {e : HostEvent} {rest : List HostEvent} (hp : s.pending = e :: rest)
    (he : e.isAccess = true) (hstep : step s = .next t) : AccessEffect s.block e t.block := by
  cases e with
  | reset => cases he
  | resetDuringCommand v => cases he
  | access a =>
    cases a with
    | read off width =>
      cases (step_read hp).symm.trans hstep
      exact .unchanged _
    | write off width v =>
      cases (step_write hp).symm.trans hstep
      split
      next => exact .unchanged _
      next r hr =>
        rw [State.setBlock_block]
        split
        next => exact .unchanged _
        next hrun =>
          obtain ⟨rfl, -⟩ := reach_some_w32 hr
          obtain rfl := eq_regOffset_of_reach hr
          exact writtenBlock_effect v hr (Bool.eq_false_of_not_eq_true hrun)

/-- R97, R98: a step that serves an event other than an access leaves the reset state of the same build. -/
theorem step_reset_block {s t : State} {e : HostEvent} {rest : List HostEvent} (hp : s.pending = e :: rest)
    (he : e.isAccess = false) (hstep : step s = .next t) :
    t.block = Block.atReset s.block.maxFrames (s.epoch + 1) := by
  cases e with
  | access a => cases he
  | reset =>
    cases (step_reset hp).symm.trans hstep
    rfl
  | resetDuringCommand v =>
    cases (step_resetDuringCommand hp).symm.trans hstep
    rfl

namespace AccessEffect

variable {b c : Block} {e : HostEvent}

theorem maxFrames_kept (h : AccessEffect b e c) : c.maxFrames = b.maxFrames := by
  cases h with
  | command i c hrun h =>
    obtain ⟨hmax, -, -⟩ := h.operands_kept
    exact hmax
  | _ => rfl

theorem operand_kept_or_written (h : AccessEffect b e c) : c.operand = b.operand ∨ ∃ v, e = wr .operand v := by
  cases h with
  | operand v hrun => exact .inr ⟨v, rfl⟩
  | command i c hrun h =>
    obtain ⟨-, hoperand, -⟩ := h.operands_kept
    exact .inl hoperand
  | _ => exact .inl rfl

theorem len_kept_or_written (h : AccessEffect b e c) : c.len = b.len ∨ ∃ v, e = wr .len v := by
  cases h with
  | len v hrun => exact .inr ⟨v, rfl⟩
  | command i c hrun h =>
    obtain ⟨-, -, hlen⟩ := h.operands_kept
    exact .inl hlen
  | _ => exact .inl rfl

/-- R16: what only commands write is kept, or the access is a CMD write to a running block. -/
theorem results_kept_or_cmd (h : AccessEffect b e c) :
    (c.result = b.result ∧ c.code = b.code ∧ c.fatal = b.fatal ∧ c.errCrc = b.errCrc ∧ c.errPos = b.errPos ∧
      c.fatalLen = b.fatalLen) ∨ (b.fatal = false ∧ ∃ v, e = wr .cmd v) := by
  cases h with
  | command i c hrun h => exact .inr ⟨hrun, encode i, rfl⟩
  | illegal v hrun => exact .inr ⟨hrun, v, rfl⟩
  | _ => exact .inl ⟨rfl, rfl, rfl, rfl, rfl, rfl⟩

/-- R16: FBUF is kept, or the access is WRITE_WORDS or writes the one entry it reaches. -/
theorem fbuf_kept_or_written (h : AccessEffect b e c) :
    c.fbuf = b.fbuf ∨ e = wrCommand .writeWords ∨
      ∃ i v, e = wr (.fbuf i) v ∧ reach b.maxFrames (regOffset (.fbuf i)) .w32 = some (.fbuf i) ∧
        c.fbuf = b.fbuf.set i (v.extractLsb' 0 8) := by
  cases h with
  | fbuf i v hrun hreach => exact .inr (.inr ⟨i, v, rfl, hreach, rfl⟩)
  | command i c hrun h =>
    by_cases hi : i = .writeWords
    · exact .inr (.inl (congrArg wrCommand hi))
    · exact .inl (h.fbuf_kept hi)
  | _ => exact .inl rfl

/-- R16: WBUF is kept, or the access is READ_WORDS or writes the one entry it reaches. -/
theorem wbuf_kept_or_written (h : AccessEffect b e c) :
    c.wbuf = b.wbuf ∨ e = wrCommand .readWords ∨
      ∃ j v, e = wr (.wbuf j) v ∧ reach b.maxFrames (regOffset (.wbuf j)) .w32 = some (.wbuf j) ∧
        c.wbuf = b.wbuf.set j (v.extractLsb' 0 16) := by
  cases h with
  | wbuf j v hrun hreach => exact .inr (.inr ⟨j, v, rfl, hreach, rfl⟩)
  | command i c hrun h =>
    by_cases hi : i = .readWords
    · exact .inr (.inl (congrArg wrCommand hi))
    · exact .inl (h.wbuf_kept hi)
  | _ => exact .inl rfl

/-- R84: FATAL and FATAL_LEN are kept, or the access is READ_WORDS with an illegal length to a running block. -/
theorem fatal_kept_or_entered (h : AccessEffect b e c) :
    (c.fatal = b.fatal ∧ c.fatalLen = b.fatalLen) ∨
      (b.fatal = false ∧ e = wrCommand .readWords ∧ badLength (lenCount b) = true ∧ c.fatal = true ∧
        c.fatalLen = b.len) := by
  cases h with
  | command i c hrun h =>
    obtain hkept | ⟨rfl, hbad, hfatal, hlen⟩ := h.fatal_kept_or_entered
    · exact .inl hkept
    · exact .inr ⟨hrun, rfl, hbad, hfatal, hlen⟩
  | _ => exact .inl ⟨rfl, rfl⟩

/-- R27, R28: ERR_CRC and ERR_POS are kept, or CODE becomes CRC_MISMATCH or FRAME_MISMATCH. -/
theorem errors_kept_or_mismatch (h : AccessEffect b e c) :
    (c.errCrc = b.errCrc ∧ c.errPos = b.errPos) ∨ c.code = 2#4 ∨ c.code = 3#4 := by
  cases h with
  | command i c hrun h => exact h.errors_kept_or_mismatch
  | _ => exact .inl ⟨rfl, rfl⟩

/-- R32: an FBUF entry that neither the host nor WRITE_WORDS writes reads as before. -/
theorem readReg_fbuf_kept (h : AccessEffect b e c) {i : Nat} (hhost : ∀ v, e ≠ wr (.fbuf i) v)
    (hcmd : e ≠ wrCommand .writeWords ∨ 3 * lenCount b ≤ i) : readReg c (.fbuf i) = readReg b (.fbuf i) := by
  cases h with
  | fbuf j v hrun hreach => exact readReg_setFbufAt_other b _ fun heq => hhost v (heq ▸ rfl)
  | command k c hrun h =>
    exact congrArg (BitVec.setWidth 32) (h.fbufAt_kept (hcmd.imp_left fun hne hk => hne (congrArg wrCommand hk)))
  | _ => rfl

/-- R32: a WBUF entry that neither the host nor READ_WORDS writes reads as before. -/
theorem readReg_wbuf_kept (h : AccessEffect b e c) {j : Nat} (hhost : ∀ v, e ≠ wr (.wbuf j) v)
    (hcmd : e ≠ wrCommand .readWords ∨ lenCount b / 3 ≤ j) : readReg c (.wbuf j) = readReg b (.wbuf j) := by
  cases h with
  | wbuf i v hrun hreach => exact readReg_setWbufAt_other b _ fun heq => hhost v (heq ▸ rfl)
  | command k c hrun h =>
    exact congrArg (BitVec.setWidth 32) (h.wbufAt_kept (hcmd.imp_left fun hne hk => hne (congrArg wrCommand hk)))
  | _ => rfl

end AccessEffect

/-- R20: no step changes MAX_FRAMES. -/
theorem step_keeps_maxFrames {s t : State} (hstep : step s = .next t) : t.block.maxFrames = s.block.maxFrames := by
  cases hp : s.pending with
  | nil =>
    cases (step_idle hp).symm.trans hstep
    rfl
  | cons e rest =>
    cases he : e.isAccess with
    | true => exact (step_access_effect hp he hstep).maxFrames_kept
    | false =>
      rw [step_reset_block hp he hstep]
      rfl

/-! ### The statements -/

/-- Settles O5: the CMD write that `withFetchWord` puts at the port reaches CMD and spells the command of the table
word. -/
theorem placedWordIsTheNextCommand : Obligations.PlacedWordIsTheNextCommand := by
  intro s nbits w i hrun hdec
  have hstep : step (s.withFetchWord nbits w) = _ := step_write (off := regOffset .cmd) (width := .w32) rfl
  rw [hstep, regOffset, reach_cmd, exec_eq]
  simp [writtenBlock, decode_tableWord hdec, hrun, State.withFetchWord, answer, State.setBlock, State.setPending,
    State.setResponse]

/-- Settles O35: ID and CONFIG are constants, CAPACITY reads a legal capacity whole, and no step changes it. -/
theorem hardwiredRegistersNeverChange : Obligations.HardwiredRegistersNeverChange := by
  refine ⟨fun _ => ⟨rfl, rfl, rfl⟩, fun _ => ?_, capacityWord_toNat Memory.wf_reset, maxFrames_legal,
    fun _ _ => step_keeps_maxFrames⟩
  obtain ⟨hword, hpoly, hinit, hxor, hreflect⟩ := configWord_fields
  exact ⟨rfl, hword, hpoly, hinit, hxor, hreflect, capacityWord_toNat⟩

/-- Settles O37: each writable field is read after a write to it, and then after a write to another register. -/
theorem writtenFieldsReadBackTruncated : Obligations.WrittenFieldsReadBackTruncated := by
  rintro b v ⟨-, -, hfbuf, hwbuf⟩
  refine ⟨zext_low_eq_mask 24 v, zext_low_eq_mask 16 v, fun i hi => ?_, fun j hj => ?_,
    fun r q _ hq => readReg_writeReg_other b v hq⟩
  · exact (congrArg (BitVec.setWidth 32) (fbufAt_setFbufAt_same b i _ (by omega))).trans (zext_low_eq_mask 8 v)
  · exact (congrArg (BitVec.setWidth 32) (wbufAt_setWbufAt_same b j _ (by omega))).trans (zext_low_eq_mask 16 v)

/-- Settles O41, by the effects an access can have. -/
theorem eachRegisterHasItsWriters : Obligations.EachRegisterHasItsWriters := by
  intro s t e rest hp he hstep
  have heff := step_access_effect hp he hstep
  refine ⟨heff.operand_kept_or_written.resolve_left, heff.len_kept_or_written.resolve_left, ?_, ?_, ?_⟩
  · intro hchange
    obtain ⟨hresult, hcode, hfatal, hcrc, hpos, hflen⟩ | ⟨-, hcmd⟩ := heff.results_kept_or_cmd
    · simp [hresult, hcode, hfatal, hcrc, hpos, hflen] at hchange
    · exact hcmd
  · intro hchange
    obtain hcmd | ⟨i, v, rfl, hreach, hset⟩ := heff.fbuf_kept_or_written.resolve_left hchange
    · exact .inl hcmd
    · exact .inr ⟨_, v, i, rfl, hreach, reach_fbuf_lt hreach, hset⟩
  · intro hchange
    obtain hcmd | ⟨j, v, rfl, hreach, hset⟩ := heff.wbuf_kept_or_written.resolve_left hchange
    · exact .inl hcmd
    · exact .inr ⟨_, v, j, rfl, hreach, reach_wbuf_lt hreach, hset⟩

/-- R85: no command clears FATAL. -/
theorem exec_keeps_halt {i : Instr} {s t : State} (h : exec i s = .next t) (hhalt : s.block.fatal = true) :
    t.block.fatal = true := by
  cases (exec_eq i s).symm.trans h
  obtain ⟨hfatal, -⟩ | ⟨-, -, hfatal, -⟩ := (commandBlock_outcome i s.block).fatal_kept_or_entered
  · exact hfatal.trans hhalt
  · exact hfatal

/-- R84: a step that sets FATAL serves READ_WORDS with an illegal length. -/
theorem step_sets_fatal {s t : State} {e : HostEvent} {rest : List HostEvent} (hp : s.pending = e :: rest)
    (hstep : step s = .next t) (hrun : s.block.fatal = false) (hhalt : t.block.fatal = true) :
    e = wrCommand .readWords ∧ badLength (lenCount s.block) = true := by
  cases he : e.isAccess with
  | false =>
    rw [step_reset_block hp he hstep] at hhalt
    cases hhalt
  | true =>
    obtain ⟨hkept, -⟩ | ⟨-, hread, hbad, -, -⟩ := (step_access_effect hp he hstep).fatal_kept_or_entered
    · rw [hkept, hrun] at hhalt
      cases hhalt
    · exact ⟨hread, hbad⟩

/-- R85: a step that serves an access does not clear FATAL. -/
theorem step_access_keeps_halt {s t : State} {e : HostEvent} {rest : List HostEvent} (hp : s.pending = e :: rest)
    (he : e.isAccess = true) (hstep : step s = .next t) (hhalt : s.block.fatal = true) : t.block.fatal = true := by
  obtain ⟨hkept, -⟩ | ⟨-, -, -, hfatal, -⟩ := (step_access_effect hp he hstep).fatal_kept_or_entered
  · exact hkept.trans hhalt
  · exact hfatal

/-- Settles O42: STATUS's fields, then the effects a command and an access can have on CODE and FATAL. -/
theorem statusIsWrittenByCommandsAndClearedByReset : Obligations.StatusIsWrittenByCommandsAndClearedByReset := by
  refine ⟨fun b => ⟨statusWord_code b, statusWord_fatal b, statusWord_reserved b⟩, rfl,
    fun _ _ _ => exec_keeps_halt, fun s t e rest hp hstep => ⟨?_, ?_, ?_⟩⟩
  · intro he hchange
    obtain ⟨-, hcode, -⟩ | hcmd := (step_access_effect hp he hstep).results_kept_or_cmd
    · exact absurd hcode hchange
    · exact hcmd
  · intro hrun hhalt
    obtain ⟨hread, hbad⟩ := step_sets_fatal hp hstep hrun hhalt
    exact ⟨hread, by simpa [badLength, lenCount] using hbad⟩
  · intro hhalt hrun
    refine Bool.eq_false_of_not_eq_true fun he => ?_
    rw [step_access_keeps_halt hp he hstep hhalt] at hrun
    cases hrun

/-- Settles O43, by the effects an access can have. -/
theorem errorRegistersChangeOnlyWithTheirError : Obligations.ErrorRegistersChangeOnlyWithTheirError := by
  intro s t e rest hp he hstep
  have heff := step_access_effect hp he hstep
  refine ⟨fun hchange => heff.errors_kept_or_mismatch.resolve_left fun hkept => hchange hkept.1,
    fun hchange => heff.errors_kept_or_mismatch.resolve_left fun hkept => hchange hkept.2, fun hchange => ?_⟩
  obtain ⟨-, hkept⟩ | ⟨hrun, -, -, hfatal, hlen⟩ := heff.fatal_kept_or_entered
  · exact absurd hkept hchange
  · exact ⟨hrun, hfatal, hlen⟩

/-- Settles O44, by the effects an access can have. -/
theorem bufferEntriesStayUntilWritten : Obligations.BufferEntriesStayUntilWritten := by
  intro s t e rest _ hp he hstep
  have heff := step_access_effect hp he hstep
  exact ⟨fun _ => heff.readReg_fbuf_kept, fun _ => heff.readReg_wbuf_kept⟩

end Sys2Proof.Machine

/-! PROOFS. The host port: the register map in both directions, what one access does to the block and what it answers,
what any list of events leaves, and the statements about reads, writes, refusals and repetition that follow. -/

namespace Sys2Proof.Machine

/-! ### Words (R41) and the window (R35) -/

/-- A concatenation as a number: the high part shifted by the low part's width, plus the low part. -/
theorem toNat_append_eq_add {m n : Nat} (x : BitVec m) (y : BitVec n) :
    (x ++ y).toNat = 2 ^ n * x.toNat + y.toNat := by
  rw [BitVec.toNat_append, ← Nat.shiftLeft_add_eq_or_of_lt y.isLt, Nat.shiftLeft_eq, Nat.mul_comm]

theorem hiByte_toNat (w : Word16) : (hiByte w).toNat = w.toNat / 256 := by
  rw [hiByte, BitVec.extractLsb'_toNat, Nat.shiftRight_eq_div_pow]
  omega

theorem loByte_toNat (w : Word16) : (loByte w).toNat = w.toNat % 256 := by
  rw [loByte, BitVec.extractLsb'_toNat, Nat.shiftRight_zero]

theorem joinWord_hiByte_loByte (w : Word16) : joinWord (hiByte w) (loByte w) = w := by
  rw [joinWord, hiByte, loByte, BitVec.extractLsb'_append_extractLsb'_eq_extractLsb' (by rfl)]
  exact BitVec.extractLsb'_eq_self

/-- Settles O15: the value of a joined word, then each byte of it, then the split and its inverse. -/
theorem wordsAreAssembledBigEndian : Obligations.WordsAreAssembledBigEndian :=
  ⟨fun byte0 byte1 => ⟨toNat_append_eq_add byte0 byte1, BitVec.extractLsb'_append_eq_left,
      BitVec.extractLsb'_append_eq_right⟩,
    fun w => ⟨joinWord_hiByte_loByte w, hiByte_toNat w, loByte_toNat w⟩⟩

/-- R35: the block sees the platform address of an offset as that offset. -/
theorem windowOffset_platformAddress (off : Offset) : windowOffset (platformAddress off) = some off := by
  have hin : Config.baseAddr ≤ platformAddress off ∧ platformAddress off < Config.baseAddr + windowBytes := by
    have := off.isLt
    simp only [platformAddress, windowBytes]
    omega
  rw [windowOffset, if_pos hin, platformAddress, Nat.add_sub_cancel_left, BitVec.ofNat_toNat, BitVec.setWidth_eq]

/-- R35: the addresses that do not reach the block are those outside its window. -/
theorem windowOffset_eq_none_iff (addr : Nat) :
    windowOffset addr = none ↔ addr < Config.baseAddr ∨ Config.baseAddr + windowBytes ≤ addr := by
  unfold windowOffset
  split
  next hin => simp only [reduceCtorEq, false_iff]; omega
  next hout => simp only [true_iff]; omega

/-- Settles O47: an offset's address is seen as the offset, and exactly the addresses outside the window are not. -/
theorem windowAddressesReachTheirOffset : Obligations.WindowAddressesReachTheirOffset :=
  ⟨windowOffset_platformAddress, windowOffset_eq_none_iff⟩

/-! ### The register map (R35, R36) -/

/-- R30, R31, R35: a block of `m` frames has register `r`. -/
def hasReg (m : Nat) : Reg → Prop
  | .fbuf i => i < 3 * m
  | .wbuf j => j < m
  | _ => True

theorem regOffset_fbuf_toNat {m i : Nat} (hm : m ≤ 341) (hi : i < 3 * m) :
    (regOffset (.fbuf i)).toNat = 0x1000 + 4 * i := by
  rw [regOffset, BitVec.toNat_ofNat]
  omega

theorem regOffset_wbuf_toNat {m j : Nat} (hm : m ≤ 341) (hj : j < m) :
    (regOffset (.wbuf j)).toNat = 0x2000 + 4 * j := by
  rw [regOffset, BitVec.toNat_ofNat]
  omega

theorem regAtSlot_fbuf {m i : Nat} (hm : m ≤ 341) (hi : i < 3 * m) : regAtSlot m (0x400 + i) = some (.fbuf i) := by
  unfold regAtSlot
  split
  case h_12 => rw [if_pos (by omega), Nat.add_sub_cancel_left]
  all_goals omega

theorem regAtSlot_wbuf {m j : Nat} (hm : m ≤ 341) (hj : j < m) : regAtSlot m (0x800 + j) = some (.wbuf j) := by
  unfold regAtSlot
  split
  case h_12 => rw [if_neg (by omega), if_pos (by omega), Nat.add_sub_cancel_left]
  all_goals omega

/-- A 32-bit access at four times a slot's number reaches that slot's register. -/
theorem reach_of_toNat_eq {m n : Nat} {off : Offset} (h : off.toNat = 4 * n) : reach m off .w32 = regAtSlot m n := by
  rw [reach, regAt, h, if_pos (Nat.mul_mod_right 4 n), Nat.mul_div_cancel_left n (by decide)]

/-- R35: a register the block has is reached at its own offset. -/
theorem reach_regOffset {m : Nat} {r : Reg} (hm : m ≤ 341) (hr : hasReg m r) :
    reach m (regOffset r) .w32 = some r := by
  cases r with
  | fbuf i =>
    rw [reach_of_toNat_eq (n := 0x400 + i) (by rw [regOffset_fbuf_toNat hm hr]; omega), regAtSlot_fbuf hm hr]
  | wbuf j =>
    rw [reach_of_toNat_eq (n := 0x800 + j) (by rw [regOffset_wbuf_toNat hm hr]; omega), regAtSlot_wbuf hm hr]
  | _ => rfl

/-- R35, R36: a 32-bit access reaches a register exactly when the block has it and the offset is its own. -/
theorem reach_eq_some_iff {m : Nat} {off : Offset} {r : Reg} (hm : m ≤ 341) :
    reach m off .w32 = some r ↔ hasReg m r ∧ off = regOffset r := by
  constructor
  · intro h
    refine ⟨?_, eq_regOffset_of_reach h⟩
    cases r with
    | fbuf i => exact reach_fbuf_lt h
    | wbuf j => exact reach_wbuf_lt h
    | _ => trivial
  · rintro ⟨hr, rfl⟩
    exact reach_regOffset hm hr

/-- Settles O32: the row of each register is its offset, and a buffer's rows end with the buffer. -/
theorem registerMapIsTheTable : Obligations.RegisterMapIsTheTable := by
  intro m off _ hm
  refine ⟨rfl, rfl, fun r => (reach_eq_some_iff hm).trans ?_⟩
  cases r with
  | fbuf i => exact and_congr_right fun hi => by rw [BitVec.toNat_eq, regOffset_fbuf_toNat hm hi]
  | wbuf j => exact and_congr_right fun hj => by rw [BitVec.toNat_eq, regOffset_wbuf_toNat hm hj]
  | _ => exact (iff_of_eq (true_and _)).trans BitVec.toNat_eq

/-! ### One access: what it does to the block and what it answers -/

/-- What an access leaves of the block (R37, R38, R39, R85). -/
def accessBlock (b : Block) : Access → Block
  | .read _ _ => b
  | .write off width v =>
    match reach b.maxFrames off width with
    | none => b
    | some r => if b.fatal then b else writtenBlock b r v

/-- What the block answers to an access (R37, R38, R39). -/
def accessResponse (b : Block) : Access → Response
  | .read off width =>
    match reach b.maxFrames off width with
    | none => .refusedRead 0#32 Config.busErrorSignal
    | some r => .readData (readReg b r)
  | .write off width _ =>
    match reach b.maxFrames off width with
    | none => .refusedWrite Config.busErrorSignal
    | some _ => .writeAccepted

/-- A step with an access at the head of the port. -/
theorem step_access {s : State} {a : Access} {rest : List HostEvent} (h : s.pending = .access a :: rest) :
    step s = .next { s with
      block := accessBlock s.block a, pending := rest, response := some (accessResponse s.block a) } := by
  cases a with
  | read off width => exact step_read h
  | write off width v =>
    rw [step_write h]
    simp only [accessBlock, accessResponse]
    cases reach s.block.maxFrames off width <;> rfl

theorem accessBlock_refused {b : Block} {off : Offset} {width : Width} (v : Word32)
    (h : reach b.maxFrames off width = none) : accessBlock b (.write off width v) = b := by
  rw [accessBlock, h]

theorem accessBlock_halted {b : Block} (a : Access) (h : b.fatal = true) : accessBlock b a = b := by
  cases a with
  | read off width => rfl
  | write off width v =>
    rw [accessBlock]
    cases reach b.maxFrames off width with
    | none => rfl
    | some r => exact if_pos h

theorem accessBlock_running {b : Block} {off : Offset} {width : Width} {r : Reg} (v : Word32)
    (hr : reach b.maxFrames off width = some r) (h : b.fatal = false) :
    accessBlock b (.write off width v) = writtenBlock b r v := by
  rw [accessBlock, hr]
  exact if_neg (Bool.eq_false_iff.1 h)

theorem accessResponse_accepted {b : Block} {off : Offset} {width : Width} (v : Word32)
    (h : reach b.maxFrames off width ≠ none) : accessResponse b (.write off width v) = .writeAccepted := by
  obtain ⟨r, hr⟩ := Option.ne_none_iff_exists'.1 h
  rw [accessResponse, hr]

/-- Settles O33: a refused access leaves the block, and is answered with the bus error. -/
theorem refusedAccessChangesNothing : Obligations.RefusedAccessChangesNothing := by
  intro s rest off width v h
  refine ⟨fun hp => ?_, fun hp => ?_⟩
  · rw [step_access hp, accessBlock, accessResponse, h]
  · rw [step_access hp, accessBlock_refused v h, accessResponse, h]

/-! ### Reads (R38) -/

/-- R22: STATUS as a number. -/
theorem statusWord_toNat (b : Block) : (statusWord b).toNat = b.code.toNat + 16 * b.fatal.toNat := by
  rw [statusWord, toNat_append_eq_add, toNat_append_eq_add, BitVec.toNat_ofBool, BitVec.toNat_zero]
  omega

/-- Settles O34: an accepted read answers the register and leaves the block; then the reading of each register. -/
theorem hostReadReturnsTheRegister : Obligations.HostReadReturnsTheRegister := by
  refine ⟨fun s rest off width r hr hp => ?_, fun b => ?_⟩
  · rw [step_access hp, accessBlock, accessResponse, hr]
  · obtain ⟨hconfig, -⟩ := configWord_fields
    have zext {n : Nat} (x : BitVec n) (hn : n ≤ 32) : (x.setWidth 32).toNat = x.toNat :=
      BitVec.toNat_setWidth_of_le hn
    exact ⟨rfl, hconfig, capacityWord_toNat, rfl, statusWord_toNat b, zext _ (by decide), zext _ (by decide), rfl,
      zext _ (by decide), rfl, zext _ (by decide), fun _ => zext _ (by decide), fun _ => zext _ (by decide)⟩

/-! ### Writes (R39) -/

theorem writtenBlock_command {v : Word32} {i : Instr} (b : Block) (h : decode v = .ok i) :
    writtenBlock b .cmd v = commandBlock i b := by
  rw [writtenBlock, if_pos rfl, h]

theorem writtenBlock_illegal {v : Word32} (b : Block) (h : ∀ i, decode v ≠ .ok i) :
    writtenBlock b .cmd v = illegalCommand b := by
  rw [writtenBlock, if_pos rfl]
  cases hd : decode v with
  | ok i => exact absurd hd (h i)
  | error x => rfl

theorem writtenBlock_register {r : Reg} (b : Block) (v : Word32) (h : r ≠ .cmd) :
    writtenBlock b r v = writeReg b r v :=
  if_neg h

/-- A step with an accepted write at the head of the port of a running block. -/
theorem step_write_running {s : State} {rest : List HostEvent} {off : Offset} {v : Word32} {r : Reg}
    (hr : reach s.block.maxFrames off .w32 = some r) (hrun : s.block.fatal = false)
    (hp : s.pending = .access (.write off .w32 v) :: rest) :
    step s = .next { s with
      block := writtenBlock s.block r v, pending := rest, response := some .writeAccepted } := by
  rw [step_access hp, accessBlock_running v hr hrun, accessResponse_accepted v (by simp [hr])]

/-- Settles O36: the halted block first, then a running block register by register. -/
theorem hostWriteStoresWithinTheField : Obligations.HostWriteStoresWithinTheField := by
  refine fun s rest v => ⟨fun off hreach hhalt hp => ?_, fun hrun =>
    ⟨fun hp => ⟨fun i hi => ?_, fun hillegal => ?_⟩, step_write_running (r := .operand) rfl hrun,
      step_write_running (r := .len) rfl hrun,
      fun i hm hi => step_write_running (reach_regOffset (r := .fbuf i) hm hi) hrun,
      fun j hm hj => step_write_running (reach_regOffset (r := .wbuf j) hm hj) hrun, fun off hoff hp => ?_⟩⟩
  · rw [step_access hp, accessBlock_halted _ hhalt, accessResponse_accepted v hreach]
  · rw [step_write_running (reach_cmd _) hrun hp, writtenBlock_command _ hi, exec_eq]
    rfl
  · rw [step_write_running (reach_cmd _) hrun hp, writtenBlock_illegal _ hillegal, illegalCommand_eq]
  · simp only [List.mem_cons, List.not_mem_nil, or_false] at hoff
    obtain rfl | rfl | rfl | rfl | rfl | rfl | rfl | rfl := hoff
    all_goals exact step_write_running rfl hrun hp

/-! ### A command, a write and an access done twice (R44) -/

/-- A pass that does at every place an update that is idempotent and commutes with itself is idempotent. -/
theorem foldl_foldl_of_idem {α β : Type} {u : β → α → β} [RightCommutative u]
    (hidem : ∀ b k, u (u b k) k = u b k) (l : List α) (b : β) : l.foldl u (l.foldl u b) = l.foldl u b := by
  induction l generalizing b with
  | nil => rfl
  | cons k l ih =>
    calc (k :: l).foldl u ((k :: l).foldl u b)
      _ = u (l.foldl u (l.foldl u (u b k))) k := List.foldl_cons_eq_apply_foldl
      _ = u (l.foldl u (u b k)) k := by rw [ih]
      _ = (k :: l).foldl u (u b k) := List.foldl_cons_eq_apply_foldl.symm
      _ = (k :: l).foldl u b := by rw [List.foldl_cons, hidem, List.foldl_cons]

/-- R74: one frame of the commit pass. -/
def commitFrame (b : Block) (k : Nat) : Block := setWbufAt b k (frameWord b k)

theorem commitFrames_eq_foldl (n k : Nat) (b : Block) :
    commitFrames n k b = (List.range' k n).foldl commitFrame b := by
  induction n generalizing k b with
  | zero => rfl
  | succ n ih => exact ih (k + 1) (commitFrame b k)

theorem commitFrame_idem (b : Block) (k : Nat) : commitFrame (commitFrame b k) k = commitFrame b k :=
  congrArg b.setWbuf (List.set_set _)

theorem commitFrame_comm (b : Block) (j k : Nat) :
    commitFrame (commitFrame b j) k = commitFrame (commitFrame b k) j := by
  by_cases hjk : j = k
  · rw [hjk]
  · exact congrArg b.setWbuf (List.set_comm _ _ hjk)

/-- R74: the words committed are those of FBUF, which the pass leaves, so a second pass commits the same. -/
theorem commitFrames_idem (n k : Nat) (b : Block) : commitFrames n k (commitFrames n k b) = commitFrames n k b := by
  have : RightCommutative commitFrame := ⟨commitFrame_comm⟩
  simp only [commitFrames_eq_foldl, foldl_foldl_of_idem commitFrame_idem]

/-- R76: the bytes `f` with frame `k` set to the frame of `w`. -/
def putFrame (f : List Byte) (k : Nat) (w : Word16) : List Byte :=
  ((f.set (3 * k) (hiByte w)).set (3 * k + 1) (loByte w)).set (3 * k + 2) (crcWord w)

theorem putFrame_idem (f : List Byte) (k : Nat) (w : Word16) : putFrame (putFrame f k w) k w = putFrame f k w := by
  apply List.ext_getElem?
  intro i
  simp only [putFrame, List.getElem?_set, List.length_set]
  grind

theorem putFrame_comm (f : List Byte) {j k : Nat} (hjk : j ≠ k) (v w : Word16) :
    putFrame (putFrame f j v) k w = putFrame (putFrame f k w) j v := by
  apply List.ext_getElem?
  intro i
  simp only [putFrame, List.getElem?_set, List.length_set]
  grind

theorem emitFrame_eq (b : Block) (k : Nat) : emitFrame b k = b.setFbuf (putFrame b.fbuf k (wbufAt b k)) := rfl

theorem emitFrame_emitFrame (b : Block) (j k : Nat) :
    emitFrame (emitFrame b j) k = b.setFbuf (putFrame (putFrame b.fbuf j (wbufAt b j)) k (wbufAt b k)) := by
  rw [emitFrame_eq, emitFrame_eq]
  rfl

theorem emitFrames_eq_foldl (n k : Nat) (b : Block) : emitFrames n k b = (List.range' k n).foldl emitFrame b := by
  induction n generalizing k b with
  | zero => rfl
  | succ n ih => exact ih (k + 1) (emitFrame b k)

theorem emitFrame_idem (b : Block) (k : Nat) : emitFrame (emitFrame b k) k = emitFrame b k := by
  rw [emitFrame_emitFrame, putFrame_idem, emitFrame_eq]

theorem emitFrame_comm (b : Block) (j k : Nat) : emitFrame (emitFrame b j) k = emitFrame (emitFrame b k) j := by
  by_cases hjk : j = k
  · rw [hjk]
  · rw [emitFrame_emitFrame, emitFrame_emitFrame, putFrame_comm _ hjk]

/-- R76: the frames written are those of WBUF, which the loop leaves, so a second run writes the same. -/
theorem emitFrames_idem (n k : Nat) (b : Block) : emitFrames n k (emitFrames n k b) = emitFrames n k b := by
  have : RightCommutative emitFrame := ⟨emitFrame_comm⟩
  simp only [emitFrames_eq_foldl, foldl_foldl_of_idem emitFrame_idem]

/-- The commit pass does not look at RESULT and CODE. -/
theorem commitFrames_succeed (n k : Nat) (b : Block) (r : Word32) :
    commitFrames n k (succeed b r) = succeed (commitFrames n k b) r := by
  rw [commitFrames_eq_foldl, commitFrames_eq_foldl]
  exact List.foldl_hom (fun b => succeed b r) fun _ _ => rfl

/-- The encoding loop does not look at RESULT and CODE. -/
theorem emitFrames_succeed (n k : Nat) (b : Block) (r : Word32) :
    emitFrames n k (succeed b r) = succeed (emitFrames n k b) r := by
  rw [emitFrames_eq_foldl, emitFrames_eq_foldl]
  exact List.foldl_hom (fun b => succeed b r) fun _ _ => rfl

/-- The validation pass reads FBUF alone. -/
theorem firstBadFrame_congr {b c : Block} (h : c.fbuf = b.fbuf) (n k : Nat) :
    firstBadFrame c n k = firstBadFrame b n k := by
  induction n generalizing k with
  | zero => rfl
  | succ n ih => simp only [firstBadFrame, fbufAt, h, ih]

theorem readWordsBlock_of_badLength {b : Block} (h : badLength (lenCount b) = true) :
    readWordsBlock b = raiseFatal b b.len :=
  if_pos h

theorem readWordsBlock_of_legal {b : Block} (h : badLength (lenCount b) = false) :
    readWordsBlock b = readWordsWithin b :=
  if_neg (Bool.eq_false_iff.1 h)

theorem readWordsWithin_beyond {b : Block} (h : 3 * b.maxFrames < lenCount b) : readWordsWithin b = lenRange b :=
  if_pos h

theorem readWordsWithin_bad {b : Block} {bad : BadFrame} (h : ¬ 3 * b.maxFrames < lenCount b)
    (hbad : firstBadFrame b (lenCount b / 3) 0 = some bad) :
    readWordsWithin b =
      (reportMismatch b codeFrameMismatch bad.index bad.expected bad.computed).setResult 0#32 := by
  rw [readWordsWithin, if_neg h, hbad]

theorem readWordsWithin_good {b : Block} (h : ¬ 3 * b.maxFrames < lenCount b)
    (hgood : firstBadFrame b (lenCount b / 3) 0 = none) :
    readWordsWithin b = succeed (commitFrames (lenCount b / 3) 0 b) (BitVec.ofNat 32 (lenCount b / 3)) := by
  rw [readWordsWithin, if_neg h, hgood]

theorem writeWordsBlock_beyond {b : Block} (h : b.maxFrames < lenCount b) : writeWordsBlock b = lenRange b :=
  if_pos h

theorem writeWordsBlock_within {b : Block} (h : ¬ b.maxFrames < lenCount b) :
    writeWordsBlock b = succeed (emitFrames (lenCount b) 0 b) (BitVec.ofNat 32 (3 * lenCount b)) :=
  if_neg h

theorem succeed_idem (b : Block) (r : Word32) : succeed (succeed b r) r = succeed b r := rfl

theorem reportMismatch_idem (b : Block) (r : Word32) (code : BitVec 4) (k : Nat) (e c : Byte) :
    reportMismatch ((reportMismatch (b.setResult r) code k e c).setResult r) code k e c =
      reportMismatch (b.setResult r) code k e c := rfl

theorem crcValidateBlock_ok {b : Block} {o : BitVec 24} (ho : b.operand = o)
    (h : validate (operandFrameHi o) (operandFrameLo o) (operandFrameCrc o) = .ok) :
    crcValidateBlock b = succeed b ((crc8 (operandFrameHi o) (operandFrameLo o)).setWidth 32) := by
  simp only [crcValidateBlock, ho, h]

theorem crcValidateBlock_mismatch {b : Block} {o : BitVec 24} {e c : Byte} (ho : b.operand = o)
    (h : validate (operandFrameHi o) (operandFrameLo o) (operandFrameCrc o) = .checksumError e c) :
    crcValidateBlock b =
      reportMismatch (b.setResult ((crc8 (operandFrameHi o) (operandFrameLo o)).setWidth 32))
        codeCrcMismatch 0 e c := by
  simp only [crcValidateBlock, ho, h]

theorem crcValidateBlock_idem (b : Block) : crcValidateBlock (crcValidateBlock b) = crcValidateBlock b := by
  obtain ⟨-, hoperand, -⟩ := (crcValidateBlock_outcome b).operands_kept
  cases h : validate (operandFrameHi b.operand) (operandFrameLo b.operand) (operandFrameCrc b.operand) with
  | ok =>
    rw [crcValidateBlock_ok hoperand h, crcValidateBlock_ok rfl h, succeed_idem]
  | checksumError e c =>
    rw [crcValidateBlock_mismatch hoperand h, crcValidateBlock_mismatch rfl h, reportMismatch_idem]

theorem CommandOutcome.lenCount_kept {b c : Block} {i : Instr} (h : CommandOutcome b i c) :
    lenCount c = lenCount b := by
  obtain ⟨-, -, hlen⟩ := h.operands_kept
  rw [lenCount, hlen, lenCount]

theorem readWordsWithin_idem (b : Block) : readWordsWithin (readWordsWithin b) = readWordsWithin b := by
  generalize hc : readWordsWithin b = c
  have houtcome : CommandOutcome b .readWords c := hc ▸ readWordsWithin_outcome b
  obtain ⟨hmax, -, -⟩ := houtcome.operands_kept
  have hcount := houtcome.lenCount_kept
  have hagain : firstBadFrame c (lenCount c / 3) 0 = firstBadFrame b (lenCount b / 3) 0 := by
    rw [hcount, firstBadFrame_congr (houtcome.fbuf_kept (by decide))]
  by_cases hcap : 3 * b.maxFrames < lenCount b
  · rw [readWordsWithin_beyond (by omega), ← hc, readWordsWithin_beyond hcap]
    rfl
  · cases hpass : firstBadFrame b (lenCount b / 3) 0 with
    | some bad =>
      rw [readWordsWithin_bad (by omega) (hagain.trans hpass), ← hc, readWordsWithin_bad hcap hpass]
      rfl
    | none =>
      rw [readWordsWithin_good (by omega) (hagain.trans hpass), hcount, ← hc, readWordsWithin_good hcap hpass,
        commitFrames_succeed, commitFrames_idem, succeed_idem]

theorem readWordsBlock_idem (b : Block) : readWordsBlock (readWordsBlock b) = readWordsBlock b := by
  cases hbad : badLength (lenCount b) with
  | true =>
    rw [readWordsBlock_of_badLength hbad]
    exact readWordsBlock_of_badLength hbad
  | false =>
    have hlegal := (readWordsWithin_outcome b).lenCount_kept.symm ▸ hbad
    rw [readWordsBlock_of_legal hbad, readWordsBlock_of_legal hlegal, readWordsWithin_idem]

theorem writeWordsBlock_idem (b : Block) : writeWordsBlock (writeWordsBlock b) = writeWordsBlock b := by
  generalize hc : writeWordsBlock b = c
  have houtcome : CommandOutcome b .writeWords c := hc ▸ writeWordsBlock_outcome b
  obtain ⟨hmax, -, -⟩ := houtcome.operands_kept
  have hcount := houtcome.lenCount_kept
  by_cases hcap : b.maxFrames < lenCount b
  · rw [writeWordsBlock_beyond (by omega), ← hc, writeWordsBlock_beyond hcap]
    rfl
  · rw [writeWordsBlock_within (by omega), hcount, ← hc, writeWordsBlock_within hcap, emitFrames_succeed,
      emitFrames_idem, succeed_idem]

/-- R44: a command run again at once leaves the block as it is: no command writes what it reads. -/
theorem commandBlock_idem (i : Instr) (b : Block) : commandBlock i (commandBlock i b) = commandBlock i b := by
  cases i with
  | crcCompute => rfl
  | crcValidate => exact crcValidateBlock_idem b
  | readWords => exact readWordsBlock_idem b
  | writeWords => exact writeWordsBlock_idem b

theorem writeReg_idem (b : Block) (r : Reg) (v : Word32) : writeReg (writeReg b r v) r v = writeReg b r v := by
  cases r with
  | fbuf i => exact congrArg b.setFbuf (List.set_set _)
  | wbuf j => exact congrArg b.setWbuf (List.set_set _)
  | _ => rfl

theorem writtenBlock_idem (b : Block) (r : Reg) (v : Word32) :
    writtenBlock (writtenBlock b r v) r v = writtenBlock b r v := by
  by_cases hr : r = .cmd
  · subst hr
    by_cases hlegal : ∃ i, decode v = .ok i
    · obtain ⟨i, hi⟩ := hlegal
      rw [writtenBlock_command _ hi, writtenBlock_command _ hi, commandBlock_idem]
    · have hillegal := not_exists.1 hlegal
      rw [writtenBlock_illegal _ hillegal, writtenBlock_illegal _ hillegal]
      rfl
  · rw [writtenBlock_register _ v hr, writtenBlock_register _ v hr, writeReg_idem]

theorem writtenBlock_maxFrames (b : Block) (r : Reg) (v : Word32) : (writtenBlock b r v).maxFrames = b.maxFrames := by
  unfold writtenBlock
  split
  next =>
    split
    next i _ =>
      obtain ⟨hmax, -, -⟩ := (commandBlock_outcome i b).operands_kept
      exact hmax
    next => rfl
  next =>
    obtain ⟨hmax, -⟩ := writeReg_keeps b r v
    exact hmax

/-- R44: an access repeated at once leaves the block as the first left it; if the first halted the block, because the
second is ignored. -/
theorem accessBlock_idem (b : Block) (a : Access) : accessBlock (accessBlock b a) a = accessBlock b a := by
  cases a with
  | read off width => rfl
  | write off width v =>
    cases hhalt : b.fatal with
    | true => rw [accessBlock_halted _ hhalt, accessBlock_halted _ hhalt]
    | false =>
      cases hr : reach b.maxFrames off width with
      | none => rw [accessBlock_refused v hr, accessBlock_refused v hr]
      | some r =>
        rw [accessBlock_running v hr hhalt]
        cases hhalt' : (writtenBlock b r v).fatal with
        | true => rw [accessBlock_halted _ hhalt']
        | false =>
          rw [accessBlock_running v ((writtenBlock_maxFrames b r v).symm ▸ hr) hhalt', writtenBlock_idem]

/-- Settles O40: the second access leaves what the first left, and a read is answered from an unchanged block. -/
theorem repeatingAnAccessChangesNothingMore : Obligations.RepeatingAnAccessChangesNothingMore := by
  intro s a rest hp
  refine ⟨_, _, run_succ 0 (step_access hp), (run_succ 1 (step_access hp)).trans (run_succ 0 (step_access rfl)),
    accessBlock_idem s.block a, ?_⟩
  rintro ⟨off, width, rfl⟩
  exact ⟨rfl, rfl⟩

/-! ### Any number of events -/

/-- What an event leaves of the block and of the count of resets (R37 to R39, R97, R98). -/
def afterEvent (c : Block × Nat) : HostEvent → Block × Nat
  | .access a => (accessBlock c.1 a, c.2)
  | .reset => (Block.atReset c.1.maxFrames (c.2 + 1), c.2 + 1)
  | .resetDuringCommand _ => (Block.atReset c.1.maxFrames (c.2 + 1), c.2 + 1)

/-- A step takes the event at the head of the port and has its effect. -/
theorem step_event {s : State} {e : HostEvent} {rest : List HostEvent} (h : s.pending = e :: rest) :
    ∃ t, step s = .next t ∧ t.pending = rest ∧ (t.block, t.epoch) = afterEvent (s.block, s.epoch) e := by
  cases e with
  | access a => exact ⟨_, step_access h, rfl, rfl⟩
  | reset => exact ⟨_, step_reset h, rfl, rfl⟩
  | resetDuringCommand v => exact ⟨_, step_resetDuringCommand h, rfl, rfl⟩

/-- `n` steps take the first `n` pending events and have their effects in turn. -/
theorem run_events (n : Nat) (s : State) :
    ∃ t, run n s = .next t ∧ t.pending = s.pending.drop n ∧
      (t.block, t.epoch) = (s.pending.take n).foldl afterEvent (s.block, s.epoch) := by
  induction n generalizing s with
  | zero => exact ⟨s, rfl, rfl, rfl⟩
  | succ n ih =>
    cases hp : s.pending with
    | nil =>
      obtain ⟨t, hrun, hpending, heffect⟩ := ih s
      rw [hp, List.drop_nil] at hpending
      rw [hp, List.take_nil] at heffect
      exact ⟨t, (run_succ n (step_idle hp)).trans hrun, hpending, heffect⟩
    | cons e rest =>
      obtain ⟨u, hstep, rfl, hu⟩ := step_event hp
      obtain ⟨t, hrun, hpending, heffect⟩ := ih u
      rw [hu] at heffect
      exact ⟨t, (run_succ n hstep).trans hrun, hpending, heffect⟩

/-- Settles O38: one event by one step, none by an idle step, and `n` events by `n` steps. -/
theorem everyAccessCompletesInOneStep : Obligations.EveryAccessCompletesInOneStep := by
  refine ⟨fun s e rest hp => ?_, fun s => step_idle, fun n s => ?_⟩
  · obtain ⟨t, hstep, hpending, -⟩ := step_event hp
    exact ⟨t, hstep, hpending⟩
  · obtain ⟨t, hrun, hpending, -⟩ := run_events n s
    exact ⟨t, hrun, hpending⟩

/-- R38: a read, accepted or refused, has no effect. -/
theorem afterEvent_read (c : Block × Nat) {e : HostEvent} (h : e.isRead = true) : afterEvent c e = c := by
  cases e with
  | access a =>
    cases a with
    | read off width => rfl
    | write off width v => cases h
  | reset => cases h
  | resetDuringCommand v => cases h

/-- R38, R47: reads put anywhere among other events leave what those events alone leave. -/
theorem foldl_afterEvent_interleaving {xs ys zs : List HostEvent} (h : Interleaving xs ys zs)
    (hread : ∀ e ∈ ys, e.isRead = true) (c : Block × Nat) : zs.foldl afterEvent c = xs.foldl afterEvent c := by
  induction h generalizing c with
  | nil => rfl
  | left e _ ih => exact ih hread (afterEvent c e)
  | right e _ ih =>
    obtain ⟨he, hys⟩ := List.forall_mem_cons.1 hread
    rw [List.foldl_cons, afterEvent_read c he, ih hys]

/-- R47: a run over all of a list of events empties the port and has their effects in turn. -/
theorem run_whole_list (s : State) (zs : List HostEvent) :
    ∃ t, run zs.length { s with pending := zs } = .next t ∧ t.pending = [] ∧
      (t.block, t.epoch) = zs.foldl afterEvent (s.block, s.epoch) := by
  obtain ⟨t, hrun, hpending, heffect⟩ := run_events zs.length { s with pending := zs }
  rw [List.drop_length] at hpending
  rw [List.take_length] at heffect
  exact ⟨t, hrun, hpending, heffect⟩

/-- Settles O46: both runs have the effects of their lists, and the reads among them have none. -/
theorem readsOfAnotherMasterDoNotInterfere : Obligations.ReadsOfAnotherMasterDoNotInterfere := by
  intro s xs ys zs hmerge hread
  obtain ⟨t, hrunt, htp, ht⟩ := run_whole_list s zs
  obtain ⟨u, hrunu, hup, hu⟩ := run_whole_list s xs
  have hsame : (t.block, t.epoch) = (u.block, u.epoch) := by
    rw [ht, hu, foldl_afterEvent_interleaving hmerge hread]
  obtain ⟨hblock, hepoch⟩ := Prod.mk.inj hsame
  exact ⟨t, u, hrunt, hrunu, hblock, hepoch, htp, hup⟩

end Sys2Proof.Machine

/-! PROOFS. Command words and host programs: decode and encode agree, which CMD values are illegal, the step a CMD
write is, and the pseudo-operations run access by access. -/

namespace Sys2Proof.Machine

/-! ### Decode and encode (R52, R53, R57) -/

theorem decode_encode (i : Instr) : decode (encode i) = .ok i := by
  cases i <;> rfl

/-- R53: each command has exactly one CMD value. -/
theorem decode_eq_ok_iff {v : Word32} {i : Instr} : decode v = .ok i ↔ v = encode i :=
  ⟨eq_encode_of_decode_ok, fun h => h ▸ decode_encode i⟩

/-- Settles O2: R53's four values, then both directions. -/
theorem decodeAcceptsExactlyTheEncodings : Obligations.DecodeAcceptsExactlyTheEncodings :=
  ⟨⟨rfl, rfl, rfl, rfl⟩, fun _ _ => decode_eq_ok_iff⟩

/-- A command's CMD value is its row of the opcode table. -/
theorem decodeTableWord_encode (i : Instr) : decodeTableWord 32 (encode i).toNat = some i := by
  have hfits : (encode i).toNat % 2 ^ 32 = (encode i).toNat := Nat.mod_eq_of_lt (encode i).isLt
  rw [decodeTableWord, hfits, if_pos (encode i).isLt, BitVec.ofNat_toNat, BitVec.setWidth_eq, decode_encode]
  rfl

/-- Settles O1: the eight words are the encodings of the four commands. -/
theorem tableWordsSpellTheFourCommands : Obligations.TableWordsSpellTheFourCommands :=
  ⟨decode_encode .crcCompute, decode_encode .crcValidate, decode_encode .readWords, decode_encode .writeWords,
    decodeTableWord_encode .crcCompute, decodeTableWord_encode .crcValidate, decodeTableWord_encode .readWords,
    decodeTableWord_encode .writeWords⟩

theorem exists_decode_eq_ok_iff {v : Word32} :
    (∃ i, decode v = .ok i) ↔ v = 0x1#32 ∨ v = 0x2#32 ∨ v = 0x3#32 ∨ v = 0x4#32 := by
  constructor
  · rintro ⟨i, hi⟩
    rw [eq_encode_of_decode_ok hi]
    cases i <;> decide
  · rintro (rfl | rfl | rfl | rfl)
    exacts [⟨_, decode_encode .crcCompute⟩, ⟨_, decode_encode .crcValidate⟩, ⟨_, decode_encode .readWords⟩,
      ⟨_, decode_encode .writeWords⟩]

theorem opcodeInstr_eq_none_iff : ∀ op : BitVec 4, opcodeInstr op = none ↔ op = 0x0#4 ∨ 5 ≤ op.toNat := by
  decide

/-- R57: a CMD value is illegal by a bit of its reserved field or by its OPCODE. -/
theorem decode_illegal_iff {v : Word32} :
    (∀ i, decode v ≠ .ok i) ↔ cmdReserved v ≠ 0#28 ∨ opcodeInstr (cmdOpcode v) = none := by
  unfold decode
  split
  next hres => simp [hres]
  next hres =>
    cases opcodeInstr (cmdOpcode v) with
    | some i => simpa using hres
    | none => simp

/-- R57: the illegal values by their fields. -/
theorem illegal_fields_iff {v : Word32} :
    (v.extractLsb' 4 28 ≠ 0#28 ∨ v.extractLsb' 0 4 = 0x0#4 ∨ 5 ≤ (v.extractLsb' 0 4).toNat) ↔
      ∀ i, decode v ≠ .ok i := by
  rw [decode_illegal_iff, opcodeInstr_eq_none_iff]
  rfl

/-! ### The step a CMD write is (R56, R57) -/

section CmdWrite

variable {s : State} {v : Word32} {rest : List HostEvent}

/-- R56: a CMD write of a command's value is that command, at the state with the access taken and answered. -/
theorem step_cmdWrite_of_decode_ok {i : Instr} (hrun : s.block.fatal = false)
    (hp : s.pending = cmdWrite v :: rest) (hi : decode v = .ok i) :
    step s = exec i { s with pending := rest, response := some .writeAccepted } := by
  obtain ⟨-, hrunning⟩ := hostWriteStoresWithinTheField s rest v
  obtain ⟨hcmd, -⟩ := hrunning hrun
  exact (hcmd hp).1 i hi

/-- R57: a CMD write of an illegal value sets STATUS.CODE alone. -/
theorem step_cmdWrite_of_illegal (hrun : s.block.fatal = false)
    (hp : s.pending = cmdWrite v :: rest) (hillegal : ∀ i, decode v ≠ .ok i) :
    step s = .next { s with
      block := { s.block with code := 5#4 }, pending := rest, response := some .writeAccepted } := by
  obtain ⟨-, hrunning⟩ := hostWriteStoresWithinTheField s rest v
  obtain ⟨hcmd, -⟩ := hrunning hrun
  exact (hcmd hp).2 hillegal

end CmdWrite

/-- Settles O3: the illegal values by their fields, the legal ones by name, and the step of an illegal one. -/
theorem illegalCommandSetsOnlyTheCode : Obligations.IllegalCommandSetsOnlyTheCode :=
  ⟨fun _ => illegal_fields_iff, fun _ => exists_decode_eq_ok_iff, fun _ _ _ => step_cmdWrite_of_illegal⟩

/-- Settles O4: the command a value decodes to, at each of the four encodings, and the illegal command. -/
theorem stepRunsTheCommandWrittenToCmd : Obligations.StepRunsTheCommandWrittenToCmd := by
  intro s v rest hrun hp
  have hencoded (i : Instr) (hv : v = encode i) := step_cmdWrite_of_decode_ok hrun hp (decode_eq_ok_iff.2 hv)
  exact ⟨fun _ => step_cmdWrite_of_decode_ok hrun hp, hencoded .crcCompute, hencoded .crcValidate,
    hencoded .readWords, hencoded .writeWords, fun h => step_cmdWrite_of_illegal hrun hp (illegal_fields_iff.1 h)⟩

/-! ### A line of a host program at the head of a run (R59) -/

/-- The first `n` bits of a zero-extended `n`-bit value are the value. -/
theorem low_of_zext {n : Nat} (hn : n ≤ 32) (x : BitVec n) : (x.setWidth 32).extractLsb' 0 n = x := by
  rw [BitVec.extractLsb'_setWidth_of_le (by omega), BitVec.extractLsb'_eq_self]

section ProgramLine

variable {b : Block} {rest : List HostEvent} {a : Option Response} {epoch n : Nat} {r : Reg}

theorem run_wr {v : Word32} (hr : reach b.maxFrames (regOffset r) .w32 = some r) (hrun : b.fatal = false) :
    run (n + 1) ⟨b, wr r v :: rest, a, epoch⟩ = run n ⟨writtenBlock b r v, rest, some .writeAccepted, epoch⟩ :=
  run_succ n (step_write_running hr hrun rfl)

theorem run_wrCommand {i : Instr} (hrun : b.fatal = false) :
    run (n + 1) ⟨b, wrCommand i :: rest, a, epoch⟩ = run n ⟨commandBlock i b, rest, some .writeAccepted, epoch⟩ := by
  rw [wrCommand, run_wr rfl hrun, writtenBlock_command b (decode_encode i)]

theorem run_rd (hr : reach b.maxFrames (regOffset r) .w32 = some r) :
    run (n + 1) ⟨b, rd r :: rest, a, epoch⟩ = run n ⟨b, rest, some (.readData (readReg b r)), epoch⟩ := by
  rw [run_succ n (step_access rfl), accessBlock, accessResponse, hr]

/-- R60: the three lines of an expansion that writes OPERAND, runs a command and reads a named register. -/
theorem run_operand_command_read {i : Instr} {v : Word32} (hr : ∀ m, reach m (regOffset r) .w32 = some r)
    (hrun : b.fatal = false) :
    run 3 ⟨b, wr .operand v :: wrCommand i :: rd r :: rest, a, epoch⟩ =
      .next ⟨commandBlock i (b.setOperand (v.extractLsb' 0 24)), rest,
        some (.readData (readReg (commandBlock i (b.setOperand (v.extractLsb' 0 24))) r)), epoch⟩ := by
  rw [run_wr rfl hrun, writtenBlock_register b v (by decide), writeReg,
    run_wrCommand (b := b.setOperand (v.extractLsb' 0 24)) hrun, run_rd (hr _), run_zero]

end ProgramLine

/-! ### COMPUTE and VALIDATE (R60) -/

/-- R54: the bytes of a word written to OPERAND, in word form. -/
theorem operandWord_of_word (w : Word16) :
    operandWordHi ((w.setWidth 32).extractLsb' 0 24) = hiByte w ∧
      operandWordLo ((w.setWidth 32).extractLsb' 0 24) = loByte w := by
  have hfield (start : Nat) (h : start + 8 ≤ 24) :
      ((w.setWidth 32).extractLsb' 0 24).extractLsb' start 8 = w.extractLsb' start 8 := by
    rw [BitVec.extractLsb'_extractLsb'_of_le h, BitVec.extractLsb'_setWidth_of_le (by omega)]
  exact ⟨hfield 8 (by decide), hfield 0 (by decide)⟩

/-- R54: the bytes of a frame in OPERAND, in frame form. -/
theorem operandFrame_append (b0 b1 b2 : Byte) :
    operandFrameHi (b0 ++ b1 ++ b2) = b0 ∧ operandFrameLo (b0 ++ b1 ++ b2) = b1 ∧
      operandFrameCrc (b0 ++ b1 ++ b2) = b2 := by
  have hupper (start : Nat) (h : 8 ≤ start) :
      (b0 ++ b1 ++ b2).extractLsb' start 8 = (b0 ++ b1).extractLsb' (start - 8) 8 :=
    BitVec.extractLsb'_append_eq_of_le h
  exact ⟨(hupper 16 (by decide)).trans BitVec.extractLsb'_append_eq_left,
    (hupper 8 (by decide)).trans BitVec.extractLsb'_append_eq_right, BitVec.extractLsb'_append_eq_right⟩

theorem run_compute {s : State} {w : Word16} {rest : List HostEvent} (hrun : s.block.fatal = false)
    (hp : s.pending = expand (.compute w) ++ rest) :
    ∃ t, run 3 s = .next t ∧ t.pending = rest ∧
      t.response = some (.readData ((crcWord w).setWidth 32)) ∧ t.block.code = 1#4 := by
  obtain ⟨b, _, a, epoch⟩ := s
  subst hp
  obtain ⟨hhi, hlo⟩ := operandWord_of_word w
  refine ⟨_, run_operand_command_read (fun _ => rfl) hrun, rfl, ?_, rfl⟩
  simp only [readReg, commandBlock, crcComputeBlock, succeed_eq, Block.setOperand_operand, hhi, hlo, crcWord]

/-- R22: STATUS of a block that runs is its CODE. -/
theorem statusWord_of_running {b : Block} (hrun : b.fatal = false) : statusWord b = 0#28 ++ b.code := by
  rw [statusWord, hrun]
  exact congrArg (· ++ b.code) (show 0#27 ++ BitVec.ofBool false = 0#28 by decide)

theorem crcValidateBlock_status {b : Block} (hrun : b.fatal = false) :
    statusWord (crcValidateBlock b) =
      if crc8 (operandFrameHi b.operand) (operandFrameLo b.operand) = operandFrameCrc b.operand then 0x1#32
      else 0x2#32 := by
  split
  next h =>
    rw [crcValidateBlock_ok rfl (if_pos h), statusWord_of_running]
    · exact show 0#28 ++ codeOk = 0x1#32 by decide
    · exact hrun
  next h =>
    rw [crcValidateBlock_mismatch rfl (if_neg h), statusWord_of_running]
    · exact show 0#28 ++ codeCrcMismatch = 0x2#32 by decide
    · exact hrun

theorem run_validate {s : State} {b0 b1 b2 : Byte} {rest : List HostEvent} (hrun : s.block.fatal = false)
    (hp : s.pending = expand (.validate b0 b1 b2) ++ rest) :
    ∃ t, run 3 s = .next t ∧ t.pending = rest ∧
      t.response = some (.readData (if crc8 b0 b1 = b2 then 0x00000001#32 else 0x00000002#32)) := by
  obtain ⟨b, _, a, epoch⟩ := s
  subst hp
  obtain ⟨hhi, hlo, hcrc⟩ := operandFrame_append b0 b1 b2
  have hstatus := crcValidateBlock_status (b := b.setOperand (b0 ++ b1 ++ b2)) hrun
  rw [Block.setOperand_operand, hhi, hlo, hcrc] at hstatus
  refine ⟨_, run_operand_command_read (fun _ => rfl) hrun, rfl, ?_⟩
  rw [low_of_zext (by decide), ← hstatus]
  rfl

/-! ### LOADF (R60) -/

/-- The bytes `f` with `bytes` in place of what stood from place `i` on. -/
def overwriteFrom (f : List Byte) (i : Nat) (bytes : List Byte) : List Byte :=
  f.take i ++ bytes ++ f.drop (i + bytes.length)

theorem overwriteFrom_nil (f : List Byte) (i : Nat) : overwriteFrom f i [] = f := by
  rw [overwriteFrom, List.append_nil]
  exact List.take_append_drop i f

theorem overwriteFrom_set {f : List Byte} {i : Nat} (hi : i < f.length) (b : Byte) (bytes : List Byte) :
    overwriteFrom (f.set i b) (i + 1) bytes = overwriteFrom f i (b :: bytes) := by
  have htake : (f.set i b).take (i + 1) = f.take i ++ [b] := by
    rw [List.take_succ_eq_append_getElem (by rwa [List.length_set]), List.getElem_set_self,
      List.take_set_of_le (Nat.le_refl i)]
  have hlen : i + (b :: bytes).length = i + 1 + bytes.length := by
    rw [List.length_cons]; omega
  rw [overwriteFrom, htake, List.drop_set_of_lt (by omega), overwriteFrom, hlen, List.append_assoc _ [b],
    List.singleton_append]

/-- R60: LOADF stores its bytes one entry after the other and leaves the rest of the block. -/
theorem run_loadFEvents {b : Block} {i epoch : Nat} {bytes : List Byte} {rest : List HostEvent} {a : Option Response}
    (hcap : b.maxFrames ≤ 341) (hsize : b.fbuf.length = 3 * b.maxFrames) (hrun : b.fatal = false)
    (hroom : i + bytes.length ≤ 3 * b.maxFrames) :
    ∃ a', run bytes.length ⟨b, loadFEvents i bytes ++ rest, a, epoch⟩ =
      .next ⟨b.setFbuf (overwriteFrom b.fbuf i bytes), rest, a', epoch⟩ := by
  induction bytes generalizing b i a with
  | nil => exact ⟨a, by rw [overwriteFrom_nil]; rfl⟩
  | cons x bytes ih =>
    rw [List.length_cons] at hroom
    have hreach : reach b.maxFrames (regOffset (.fbuf i)) .w32 = some (.fbuf i) :=
      reach_regOffset hcap (show i < 3 * b.maxFrames by omega)
    obtain ⟨a', hrest⟩ := ih (b := setFbufAt b i x) (i := i + 1) (a := some .writeAccepted) hcap
      ((List.length_set ..).trans hsize) hrun (by rw [setFbufAt, Block.setFbuf_maxFrames]; omega)
    have hwritten : writtenBlock b (.fbuf i) (x.setWidth 32) = setFbufAt b i x := by
      rw [writtenBlock_register b _ (by simp), writeReg, low_of_zext (by decide)]
    refine ⟨a', ?_⟩
    rw [List.length_cons, loadFEvents, List.cons_append, run_wr hreach hrun, hwritten, hrest,
      ← overwriteFrom_set (by omega)]
    rfl

theorem run_loadF {s : State} {i : Nat} {bytes : List Byte} {rest : List HostEvent} (hwf : Memory.wf s.block)
    (hrun : s.block.fatal = false) (hroom : i + bytes.length ≤ 3 * s.block.maxFrames)
    (hp : s.pending = expand (.loadF i bytes) ++ rest) :
    ∃ t, run bytes.length s = .next t ∧ t.pending = rest ∧
      t.block = { s.block with fbuf := overwriteFrom s.block.fbuf i bytes } := by
  obtain ⟨b, _, a, epoch⟩ := s
  subst hp
  obtain ⟨-, hcap, hsize, -⟩ := hwf
  obtain ⟨a', h⟩ := run_loadFEvents hcap hsize hrun hroom
  exact ⟨_, h, rfl, rfl⟩

/-- Settles O48: each pseudo-operation's run, access by access. -/
theorem pseudoOperationsRunTheirExpansion : Obligations.PseudoOperationsRunTheirExpansion :=
  ⟨fun _ _ _ => run_compute, fun _ _ _ _ _ => run_validate, fun _ _ _ _ => run_loadF⟩

end Sys2Proof.Machine

/-! PROOFS. The CRC-8 engine: rounds are linear and injective maps of bytes, from which the table, the laws of R66 and
the polynomial remainder of R63 follow; then `validate` and the two engine commands. -/

namespace Sys2Proof.Machine

/-! ### Rounds of the byte step (R61): linear over GF(2), and injective -/

/-- A conditional summand is linear in its condition. -/
theorem ite_xor_distrib {w : Nat} (p : BitVec w) (a b : Bool) :
    (if a ^^ b then p else 0#w) = (if a then p else 0#w) ^^^ (if b then p else 0#w) := by
  cases a <;> cases b <;> simp

/-- R61: a round is a shift and, when the bit shifted out is set, a reduction. -/
theorem crcRound_eq (x : Byte) : crcRound x = (x <<< 1) ^^^ (if x.getLsbD 7 then Config.poly else 0#8) := by
  unfold crcRound
  split
  next => rfl
  next => exact BitVec.xor_zero.symm

theorem crcRound_xor (x y : Byte) : crcRound (x ^^^ y) = crcRound x ^^^ crcRound y := by
  simp only [crcRound_eq, BitVec.shiftLeft_xor_distrib, BitVec.getLsbD_xor, ite_xor_distrib]
  ac_rfl

theorem crcRounds_zero (n : Nat) : crcRounds n 0#8 = 0#8 := by
  induction n with
  | zero => rfl
  | succ n ih => exact ih

theorem crcRounds_xor (n : Nat) (x y : Byte) : crcRounds n (x ^^^ y) = crcRounds n x ^^^ crcRounds n y := by
  induction n generalizing x y with
  | zero => rfl
  | succ n ih => rw [crcRounds, crcRound_xor, ih, ← crcRounds, ← crcRounds]

/-- The constant term of POLY is 1, so bit 0 after a round tells whether the round reduced. -/
theorem crcRound_bit_zero (x : Byte) : (crcRound x).getLsbD 0 = x.getLsbD 7 := by
  rw [crcRound_eq, BitVec.getLsbD_xor, BitVec.getLsbD_shiftLeft]
  cases x.getLsbD 7 <;> rfl

/-- A shift by one loses the top bit and no other. -/
theorem eq_of_shiftLeft_one_of_top {x y : Byte} (hshift : x <<< 1 = y <<< 1) (htop : x.getLsbD 7 = y.getLsbD 7) :
    x = y := by
  apply BitVec.eq_of_getLsbD_eq
  intro i hi
  by_cases h7 : i = 7
  · rw [h7, htop]
  · have hbit := congrArg (BitVec.getLsbD · (i + 1)) hshift
    simpa [BitVec.getLsbD_shiftLeft, show i + 1 < 8 by omega, -BitVec.getLsbD_eq_getElem] using hbit

theorem crcRound_injective : Function.Injective crcRound := by
  intro x y h
  have htop : x.getLsbD 7 = y.getLsbD 7 := by rw [← crcRound_bit_zero, h, crcRound_bit_zero]
  rw [crcRound_eq, crcRound_eq, htop, BitVec.xor_left_inj] at h
  exact eq_of_shiftLeft_one_of_top h htop

theorem crcRounds_injective (n : Nat) : Function.Injective (crcRounds n) := by
  induction n with
  | zero => exact Function.injective_id
  | succ n ih => exact ih.comp crcRound_injective

theorem crcRounds_bijective (n : Nat) : Function.Bijective (crcRounds n) :=
  Finite.injective_iff_bijective.1 (crcRounds_injective n)

/-- R62 with the byte step written as its rounds. -/
theorem crc8_eq (hi lo : Byte) : crc8 hi lo = crcRounds 8 (crcRounds 8 (0xFF#8 ^^^ hi) ^^^ lo) := rfl

/-! ### The table (R64) -/

/-- The table's literal, entry by entry. -/
theorem crcTable_eq_map : crcTable = (List.range 256).map fun n => crcRounds 8 (BitVec.ofNat 8 n) := by
  decide +kernel

theorem crcTableAt_eq (i : Byte) : crcTableAt i = crcRounds 8 i := by
  have hi : i.toNat < 256 := i.isLt
  simp [crcTableAt, crcTable_eq_map, List.getD, hi]

/-- Settles O7: each table entry is eight rounds of its index, and rounds are injective. -/
theorem tableEngineEqualsTheBitLoop : Obligations.TableEngineEqualsTheBitLoop := by
  have htable : crcTableAt = crcRounds 8 := funext crcTableAt_eq
  rw [Obligations.TableEngineEqualsTheBitLoop, htable]
  refine ⟨by rw [crcTable_eq_map, List.length_map, List.length_range], fun i => ?_, fun _ _ => rfl,
    crc8_eq, crcRounds_bijective 8⟩
  rw [crcStep, BitVec.zero_xor]

/-- Settles O13: the high byte 0xFF cancels INIT, and rounds keep the remainder 0. -/
theorem highByteFFLeavesTheTableEntry : Obligations.HighByteFFLeavesTheTableEntry := by
  have hstep : crcStep 0xFF#8 0xFF#8 = 0#8 := crcRounds_zero 8
  have hcrc (lo : Byte) : crc8 0xFF#8 lo = crcRounds 8 lo := by
    rw [crc8, Config.init, hstep, crcStep, BitVec.zero_xor]
  exact ⟨hstep, fun lo => (hcrc lo).trans (crcTableAt_eq lo).symm, (hcrc 0x00#8).trans (crcRounds_zero 8)⟩

/-! ### Affinity and syndromes (R66 a, c) -/

theorem crcWord_zero : crcWord 0x0000#16 = 0x81#8 := by
  decide +kernel

/-- R66 (a): CRC8 is linear up to the constant that INIT contributes. -/
theorem crcWord_eq_linear (w : Word16) :
    crcWord w = crcRounds 16 (hiByte w) ^^^ crcRounds 8 (loByte w) ^^^ 0x81#8 := by
  have hinit : crcRounds 16 0xFF#8 = 0x81#8 := by decide +kernel
  calc crcWord w
    _ = crcRounds 16 0xFF#8 ^^^ crcRounds 16 (hiByte w) ^^^ crcRounds 8 (loByte w) := by
      rw [crcWord, crc8_eq, crcRounds_xor, crcRounds_xor, crcRounds_xor]
      rfl
    _ = crcRounds 16 (hiByte w) ^^^ crcRounds 8 (loByte w) ^^^ 0x81#8 := by
      rw [hinit]
      ac_rfl

theorem crcWord_xor (a b : Word16) : crcWord (a ^^^ b) = crcWord a ^^^ crcWord b ^^^ crcWord 0x0000#16 := by
  have hhi : hiByte (a ^^^ b) = hiByte a ^^^ hiByte b := BitVec.extractLsb'_xor
  have hlo : loByte (a ^^^ b) = loByte a ^^^ loByte b := BitVec.extractLsb'_xor
  have hconst : 0x81#8 = 0x81#8 ^^^ 0x81#8 ^^^ 0x81#8 := by decide
  rw [crcWord_zero, crcWord_eq_linear, crcWord_eq_linear a, crcWord_eq_linear b, hhi, hlo, crcRounds_xor, crcRounds_xor]
  conv_lhs => rw [hconst]
  ac_rfl

theorem crcSyndromes_getD : ∀ i < 16, crcSyndromes.getD i 0#8 = crcWord (1#16 <<< i) ^^^ 0x81#8 := by
  decide +kernel

/-- Settles O9: CRC8 of the words 0, a and b share one constant. -/
theorem crcOfXorIsAffine : Obligations.CrcOfXorIsAffine := ⟨crcWord_zero, crcWord_xor⟩

/-- Settles O11: the flip law is affinity at the word `1 << i`. -/
theorem singleBitFlipsChangeTheCrcByTheirSyndrome : Obligations.SingleBitFlipsChangeTheCrcByTheirSyndrome := by
  refine ⟨rfl, by decide, by decide, fun w i hi => ⟨crcSyndromes_getD i hi, ?_⟩⟩
  rw [crcWord_xor, crcWord_zero, crcSyndromes_getD i hi, BitVec.xor_assoc]

/-! ### One byte at a time (R66 b, d) -/

theorem xor_bijective {n : Nat} (x : BitVec n) : Function.Bijective (x ^^^ ·) :=
  Finite.injective_iff_bijective.1 fun _ _ h => (BitVec.xor_right_inj x).1 h

theorem crc8_low_bijective (hi : Byte) : Function.Bijective (fun lo => crc8 hi lo) :=
  (crcRounds_bijective 8).comp (xor_bijective (crcRounds 8 (0xFF#8 ^^^ hi)))

theorem crc8_high_injective (lo : Byte) : Function.Injective (fun hi => crc8 hi lo) := by
  intro hi hi' h
  have hin := (BitVec.xor_left_inj lo).1 (crcRounds_injective 8 h)
  exact (BitVec.xor_right_inj 0xFF#8).1 (crcRounds_injective 8 hin)

theorem crcWord_joinWord (hi lo : Byte) : crcWord (joinWord hi lo) = crc8 hi lo := by
  rw [crcWord, hiByte, loByte, joinWord, BitVec.extractLsb'_append_eq_left, BitVec.extractLsb'_append_eq_right]

/-- Settles O10: each byte enters the CRC through XOR and rounds, both bijective. -/
theorem crcIsABijectionInEachByte : Obligations.CrcIsABijectionInEachByte := by
  refine ⟨crc8_low_bijective, fun lo => Finite.injective_iff_bijective.1 (crc8_high_injective lo), fun c hi => ?_⟩
  simp only [crcWord_joinWord]
  exact (crc8_low_bijective hi).existsUnique c

theorem validFrame_iff {b0 b1 b2 : Byte} : validFrame b0 b1 b2 = true ↔ crc8 b0 b1 = b2 := by
  rw [validFrame, beq_iff_eq, eq_comm]

/-- Settles O12: the CRC is injective in each data byte, and the third byte is the CRC. -/
theorem oneChangedByteMakesAFrameInvalid : Obligations.OneChangedByteMakesAFrameInvalid := by
  intro b0 b1 b2 v hvalid
  simp only [← Bool.not_eq_true, validFrame_iff] at hvalid ⊢
  subst hvalid
  exact ⟨fun hne => (crc8_high_injective b1).ne hne, fun hne => (crc8_low_bijective b0).injective.ne hne, Ne.symm⟩

/-! ### The product over GF(2) (R63) -/

theorem gfMul_xor (p : BitVec 24) (n : Nat) (a b : BitVec 16) :
    gfMul p n (a ^^^ b) = gfMul p n a ^^^ gfMul p n b := by
  induction n with
  | zero => exact BitVec.xor_zero.symm
  | succ n ih =>
    simp only [gfMul, ih, BitVec.getLsbD_xor, ite_xor_distrib]
    ac_rfl

theorem gfMul_zero (p : BitVec 24) (n : Nat) : gfMul p n 0#16 = 0#24 := by
  induction n with
  | zero => rfl
  | succ n ih => simp [gfMul, ih]

/-- The product with `x^k` is the shift by `k`. -/
theorem gfMul_twoPow (p : BitVec 24) {n k : Nat} (hk : k < 16) :
    gfMul p n (BitVec.twoPow 16 k) = if k < n then p <<< k else 0#24 := by
  induction n with
  | zero => rfl
  | succ n ih =>
    rw [gfMul, ih, BitVec.getLsbD_twoPow]
    obtain hlt | rfl | hgt := Nat.lt_trichotomy k n
    · simp [hlt, hlt.ne, show k < n + 1 by omega]
    · simp [hk]
    · simp [hgt.ne', show ¬ k < n by omega, show ¬ k < n + 1 by omega]

/-- The divisor has degree 8. -/
theorem crcPolynomial_getLsbD_of_gt {i : Nat} (hi : 8 < i) : crcPolynomial.getLsbD i = false :=
  Nat.testBit_lt_two_pow (calc crcPolynomial.toNat
    _ < 2 ^ 9 := by decide
    _ ≤ 2 ^ i := Nat.pow_le_pow_right (by decide) hi)

/-- The product of the divisor with a quotient below `x^n` has no term from `x^(n + 8)` on. -/
theorem gfMul_crcPolynomial_getLsbD_of_ge (q : BitVec 16) {n i : Nat} (hi : n + 8 ≤ i) :
    (gfMul crcPolynomial n q).getLsbD i = false := by
  induction n with
  | zero => exact BitVec.getLsbD_zero
  | succ n ih =>
    rw [gfMul, BitVec.getLsbD_xor, ih (by omega), Bool.false_xor]
    split
    next => rw [BitVec.getLsbD_shiftLeft, crcPolynomial_getLsbD_of_gt (by omega), Bool.and_false]
    next => exact BitVec.getLsbD_zero

/-- The product with a quotient of degree `n` has degree `n + 8`. -/
theorem gfMul_crcPolynomial_leading (q : BitVec 16) {n : Nat} (hn : n < 16) :
    (gfMul crcPolynomial (n + 1) q).getLsbD (n + 8) = q.getLsbD n := by
  rw [gfMul, BitVec.getLsbD_xor, gfMul_crcPolynomial_getLsbD_of_ge q (Nat.le_refl _), Bool.false_xor]
  have hlead : (crcPolynomial <<< n).getLsbD (n + 8) = true := by
    have hfits : n + 8 < 24 := by omega
    simp [hfits, crcPolynomial, Config.poly]
  split
  next hq => rw [hq, hlead]
  next hq => rw [Bool.eq_false_of_not_eq_true hq, BitVec.getLsbD_zero]

/-- A multiple of the divisor of degree below 8 is 0. -/
theorem gfMul_crcPolynomial_eq_zero {q : BitVec 16} {n : Nat} (hn : n ≤ 16)
    (hlow : ∀ i, 8 ≤ i → (gfMul crcPolynomial n q).getLsbD i = false) : gfMul crcPolynomial n q = 0#24 := by
  induction n with
  | zero => rfl
  | succ n ih =>
    have hlead : q.getLsbD n = false := by
      rw [← gfMul_crcPolynomial_leading q hn]
      exact hlow (n + 8) (by omega)
    have hdrop : gfMul crcPolynomial (n + 1) q = gfMul crcPolynomial n q := by
      rw [gfMul, hlead]
      exact BitVec.xor_zero
    rw [hdrop] at hlow ⊢
    exact ih (by omega) hlow

/-! ### The remainder (R63) -/

/-- `z` and `w` differ by a multiple of the divisor `x^8 + x^5 + x^4 + 1`. -/
def CrcCongruent (z w : BitVec 24) : Prop := ∃ q : BitVec 16, gfMul crcPolynomial 16 q ^^^ w = z

theorem CrcCongruent.refl (z : BitVec 24) : CrcCongruent z z := ⟨0#16, by rw [gfMul_zero, BitVec.zero_xor]⟩

theorem CrcCongruent.symm {z w : BitVec 24} (h : CrcCongruent z w) : CrcCongruent w z := by
  obtain ⟨q, rfl⟩ := h
  exact ⟨q, by rw [← BitVec.xor_assoc, BitVec.xor_self, BitVec.zero_xor]⟩

theorem CrcCongruent.trans {z w v : BitVec 24} (h : CrcCongruent z w) (h' : CrcCongruent w v) : CrcCongruent z v := by
  obtain ⟨q, rfl⟩ := h
  obtain ⟨q', rfl⟩ := h'
  exact ⟨q ^^^ q', by rw [gfMul_xor, BitVec.xor_assoc]⟩

theorem CrcCongruent.xor_right {z w : BitVec 24} (h : CrcCongruent z w) (v : BitVec 24) :
    CrcCongruent (z ^^^ v) (w ^^^ v) := by
  obtain ⟨q, rfl⟩ := h
  exact ⟨q, (BitVec.xor_assoc ..).symm⟩

/-- The bit that a shift of a byte drops is the coefficient of `x^8` of its product with `x`. -/
theorem zext_shiftLeft_one (x : Byte) :
    x.setWidth 24 <<< 1 = (if x.getLsbD 7 then BitVec.twoPow 24 8 else 0#24) ^^^ (x <<< 1).setWidth 24 := by
  apply BitVec.eq_of_getLsbD_eq
  intro i hi
  rw [BitVec.getLsbD_xor, apply_ite (BitVec.getLsbD · i), BitVec.getLsbD_twoPow, BitVec.getLsbD_zero]
  simp only [BitVec.getLsbD_shiftLeft, BitVec.getLsbD_setWidth, hi, show i - 1 < 24 by omega]
  obtain hlt | rfl | hgt := Nat.lt_trichotomy i 8
  · simp [hlt, hlt.ne']
  · simp
  · simp [hgt.ne, BitVec.getLsbD_of_ge x (i - 1) (by omega), show ¬ i < 8 by omega]

/-- R61: a round is the product with `x`, reduced by the divisor when the product has a term `x^8`. -/
theorem zext_shiftLeft_one_eq_round (x : Byte) :
    x.setWidth 24 <<< 1 = (if x.getLsbD 7 then crcPolynomial else 0#24) ^^^ (crcRound x).setWidth 24 := by
  rw [crcRound_eq, zext_shiftLeft_one]
  split
  next =>
    rw [BitVec.setWidth_xor, BitVec.xor_comm _ (BitVec.setWidth 24 Config.poly), ← BitVec.xor_assoc]
    rfl
  next => rw [BitVec.xor_zero]

theorem crcCongruent_round (x : Byte) {k : Nat} (hk : k < 16) :
    CrcCongruent (x.setWidth 24 <<< (k + 1)) ((crcRound x).setWidth 24 <<< k) := by
  rw [Nat.add_comm, BitVec.shiftLeft_add, zext_shiftLeft_one_eq_round, BitVec.shiftLeft_xor_distrib]
  split
  next => exact ⟨BitVec.twoPow 16 k, by rw [gfMul_twoPow _ hk, if_pos hk]⟩
  next => exact ⟨0#16, by rw [gfMul_zero, BitVec.zero_shiftLeft]⟩

theorem crcCongruent_rounds {n k : Nat} (x : Byte) (h : n + k ≤ 16) :
    CrcCongruent (x.setWidth 24 <<< (n + k)) ((crcRounds n x).setWidth 24 <<< k) := by
  induction n generalizing x with
  | zero => rw [Nat.zero_add]; exact .refl _
  | succ n ih =>
    rw [Nat.add_right_comm]
    exact (crcCongruent_round x (by omega)).trans (ih (crcRound x) (by omega))

/-- A multiple of the divisor plus a remainder of 8 bits has no other remainder of 8 bits. -/
theorem eq_of_crcCongruent {r t : Byte} (h : CrcCongruent (r.setWidth 24) (t.setWidth 24)) : r = t := by
  obtain ⟨q, hq⟩ := h
  have hmul : gfMul crcPolynomial 16 q = (r ^^^ t).setWidth 24 := by
    rw [BitVec.setWidth_xor, ← hq, BitVec.xor_assoc, BitVec.xor_self, BitVec.xor_zero]
  have hzero := gfMul_crcPolynomial_eq_zero (q := q) (Nat.le_refl 16) fun i hi => by
    rw [hmul, BitVec.getLsbD_setWidth, BitVec.getLsbD_of_ge _ _ hi, Bool.and_false]
  rw [hmul] at hzero
  have hxor := congrArg (BitVec.setWidth 8) hzero
  rw [BitVec.setWidth_setWidth_of_le _ (by decide), BitVec.setWidth_eq] at hxor
  exact BitVec.xor_eq_zero_iff.1 hxor

theorem zext_append_eq_xor (hi lo : Byte) :
    (hi ++ lo).setWidth 24 = hi.setWidth 24 <<< 8 ^^^ lo.setWidth 24 := by
  apply BitVec.eq_of_getLsbD_eq
  intro i hwidth
  simp only [BitVec.getLsbD_setWidth, BitVec.getLsbD_append, BitVec.getLsbD_xor, BitVec.getLsbD_shiftLeft]
  by_cases hlow : i < 8
  · simp [hwidth, hlow]
  · simp [hwidth, hlow, show i - 8 < 24 by omega, BitVec.getLsbD_of_ge lo i (by omega)]

/-- R63: `({hi, lo} ^ 0xFF00) · x^8`: INIT acts on the first byte alone, which stands `x^8` above the second. -/
theorem zext_word_shiftLeft (hi lo : Byte) :
    ((hi ++ lo : BitVec 16) ^^^ 0xFF00#16).setWidth 24 <<< 8 =
      (0xFF#8 ^^^ hi).setWidth 24 <<< (8 + 8) ^^^ lo.setWidth 24 <<< 8 := by
  have hinit : (hi ++ lo : BitVec 16) ^^^ (0xFF#8 ++ 0x00#8) = (0xFF#8 ^^^ hi) ++ lo := by
    rw [BitVec.xor_append, BitVec.xor_zero, BitVec.xor_comm]
  rw [BitVec.shiftLeft_add, ← BitVec.shiftLeft_xor_distrib, ← zext_append_eq_xor, ← hinit]
  rfl

theorem crcCongruent_crc8 (hi lo : Byte) :
    CrcCongruent (((hi ++ lo : BitVec 16) ^^^ 0xFF00#16).setWidth 24 <<< 8) ((crc8 hi lo).setWidth 24) := by
  have hhi := (crcCongruent_rounds (n := 8) (k := 8) (0xFF#8 ^^^ hi) (by omega)).xor_right (lo.setWidth 24 <<< 8)
  have hlo := crcCongruent_rounds (n := 8) (k := 0) (crcRounds 8 (0xFF#8 ^^^ hi) ^^^ lo) (by omega)
  rw [← BitVec.shiftLeft_xor_distrib, ← BitVec.setWidth_xor] at hhi
  rw [BitVec.shiftLeft_zero] at hlo
  rw [zext_word_shiftLeft, crc8_eq]
  exact hhi.trans hlo

/-- Settles O8: CRC8 is one remainder, and remainders of 8 bits are unique. -/
theorem crc8IsThePolynomialRemainder : Obligations.Crc8IsThePolynomialRemainder := by
  intro hi lo r
  have hcrc := crcCongruent_crc8 hi lo
  constructor
  · intro (h : CrcCongruent _ _)
    exact eq_of_crcCongruent (h.symm.trans hcrc)
  · rintro rfl
    exact hcrc

/-! ### validate and the two engine commands (R67, R68, R69) -/

/-- Settles O14, by the two branches of `validate`. -/
theorem validateComparesWithTheComputedCrc : Obligations.ValidateComparesWithTheComputedCrc :=
  fun _ _ _ => ⟨fun h => if_pos h, fun h => if_neg h⟩

/-- Settles O16: the command succeeds with the CRC of OPERAND's word. -/
theorem crcComputeWritesTheCrcOfTheWord : Obligations.CrcComputeWritesTheCrcOfTheWord :=
  ⟨decode_encode .crcCompute, fun s => exec_eq .crcCompute s⟩

/-- Settles O17: the outcome of `validate` on OPERAND's frame selects between success and a mismatch at frame 0. -/
theorem crcValidateReportsTheComputedCrc : Obligations.CrcValidateReportsTheComputedCrc := by
  refine ⟨decode_encode .crcValidate, fun s => ⟨fun hmatch => ?_, fun hmismatch => ?_⟩⟩
  · rw [exec_eq, commandBlock, crcValidateBlock_ok rfl (if_pos hmatch)]
    rfl
  · rw [exec_eq, commandBlock, crcValidateBlock_mismatch rfl (if_neg hmismatch)]
    rfl

/-- R68, R69: an engine command writes CODE, RESULT, ERR_CRC and ERR_POS alone, the last two only when it is a
CRC_VALIDATE that ends in CRC_MISMATCH. -/
theorem engine_commandBlock {i : Instr} (hi : i = .crcCompute ∨ i = .crcValidate) (b : Block) :
    ∃ code result errCrc errPos,
      commandBlock i b = { b with code := code, result := result, errCrc := errCrc, errPos := errPos } ∧
      ((errCrc = b.errCrc ∧ errPos = b.errPos) ∨ (i = .crcValidate ∧ code = 2#4)) := by
  obtain rfl | rfl := hi
  · exact ⟨_, _, _, _, rfl, .inl ⟨rfl, rfl⟩⟩
  · cases h : validate (operandFrameHi b.operand) (operandFrameLo b.operand) (operandFrameCrc b.operand) with
    | ok => exact ⟨_, _, _, _, crcValidateBlock_ok rfl h, .inl ⟨rfl, rfl⟩⟩
    | checksumError e c => exact ⟨_, _, _, _, crcValidateBlock_mismatch rfl h, .inr ⟨rfl, rfl⟩⟩

/-- R38: STATUS, RESULT, ERR_CRC and ERR_POS are the only registers whose reading takes the fields written here. -/
theorem readReg_of_results_written (b : Block) (code : BitVec 4) (result : Word32) (errCrc : BitVec 16)
    (errPos : Word32) {r : Reg} (hstatus : r ≠ .status) (hresult : r ≠ .result) (hcrc : r ≠ .errCrc)
    (hpos : r ≠ .errPos) :
    readReg { b with code := code, result := result, errCrc := errCrc, errPos := errPos } r = readReg b r := by
  cases r with
  | status => exact absurd rfl hstatus
  | result => exact absurd rfl hresult
  | errCrc => exact absurd rfl hcrc
  | errPos => exact absurd rfl hpos
  | _ => rfl

/-- Settles O18, by the fields an engine command writes. -/
theorem engineCommandsChangeOnlyTheirRegisters : Obligations.EngineCommandsChangeOnlyTheirRegisters := by
  intro i s t hi hexec
  obtain ⟨code, result, errCrc, errPos, hblock, herr⟩ := engine_commandBlock hi s.block
  rw [exec_eq, hblock] at hexec
  cases hexec
  refine ⟨fun _ => readReg_of_results_written s.block code result errCrc errPos,
    fun hcode => herr.resolve_right fun ⟨_, hmismatch⟩ => hcode hmismatch,
    fun hcompute => herr.resolve_right fun ⟨hvalidate, _⟩ => ?_, rfl, rfl, rfl, rfl, rfl, rfl, rfl⟩
  cases hcompute.symm.trans hvalidate

end Sys2Proof.Machine

/-! PROOFS. The frame transfers: `read_words` and `write_words` frame by frame, the rules of READ_WORDS and WRITE_WORDS
in each of their outcomes, and the statements about the two commands that follow. -/

namespace Sys2Proof.Machine

/-! ### Frames of a byte sequence (R70) -/

/-- The word frame `k` of a byte sequence carries (R70). -/
def bytesWord (B : List Byte) (k : Nat) : Word16 := joinWord (B.getD (3 * k) 0#8) (B.getD (3 * k + 1) 0#8)

/-- R70: the frames of a block are those of its FBUF. -/
theorem frameValid_iff {b : Block} {k : Nat} : frameValid b k ↔ bytesValid b.fbuf k := validFrame_iff

/-- R70: the first frame of a sequence of at least three bytes. -/
theorem bytesValid_zero {b0 b1 b2 : Byte} {B : List Byte} : bytesValid (b0 :: b1 :: b2 :: B) 0 ↔ crc8 b0 b1 = b2 :=
  Iff.rfl

/-- R70: the frames after the first are those of the sequence without its first three bytes. -/
theorem bytesValid_succ {b0 b1 b2 : Byte} {B : List Byte} {k : Nat} :
    bytesValid (b0 :: b1 :: b2 :: B) (k + 1) ↔ bytesValid B k :=
  Iff.rfl

theorem getD_take_of_lt {α : Type} {l : List α} {i n : Nat} (h : i < n) (d : α) :
    (l.take n).getD i d = l.getD i d := by
  rw [List.getD, List.getElem?_take_of_lt h, List.getD]

/-- A frame that lies in the first `n` bytes is a frame of those bytes. -/
theorem bytesValid_take {B : List Byte} {n k : Nat} (hk : k < n / 3) : bytesValid (B.take n) k ↔ bytesValid B k := by
  rw [bytesValid, getD_take_of_lt (by omega), getD_take_of_lt (by omega), getD_take_of_lt (by omega), bytesValid]

theorem bytesWord_take {B : List Byte} {n k : Nat} (hk : k < n / 3) : bytesWord (B.take n) k = bytesWord B k := by
  rw [bytesWord, getD_take_of_lt (by omega), getD_take_of_lt (by omega), bytesWord]

/-! ### `read_words` (R71) -/

theorem badLength_eq_true_iff {n : Nat} : badLength n = true ↔ n = 0 ∨ n % 3 ≠ 0 := by
  simp [badLength]

theorem badLength_eq_false {n : Nat} (h0 : n ≠ 0) (h3 : n % 3 = 0) : badLength n = false := by
  simp [badLength, h0, h3]

/-- R71: the frames from number `k` on, all valid, give their words in order. -/
theorem readFrames_of_valid {n k : Nat} {B : List Byte} (hlen : B.length = 3 * n)
    (hvalid : ∀ j, j < n → bytesValid B j) : readFrames k B = .ok ((List.range n).map (bytesWord B)) := by
  induction n generalizing k B with
  | zero =>
    rw [List.eq_nil_of_length_eq_zero hlen]
    rfl
  | succ n ih =>
    match B, hlen with
    | b0 :: b1 :: b2 :: B, hlen =>
      have hfirst : validate b0 b1 b2 = .ok := if_pos (bytesValid_zero.1 (hvalid 0 (Nat.succ_pos n)))
      have hrest := ih (k := k + 1) (Nat.add_right_cancel (m := 3) hlen)
        fun j hj => bytesValid_succ.1 (hvalid (j + 1) (Nat.succ_lt_succ hj))
      rw [readFrames, hfirst, hrest, List.range_succ_eq_map, List.map_cons, List.map_map]
      rfl

/-- R71: a bad frame after valid ones is the one reported, with its received and its computed CRC. -/
theorem readFrames_of_first_bad {i k : Nat} {B : List Byte} (hlen : 3 * i + 3 ≤ B.length) (hbad : ¬ bytesValid B i)
    (hgood : ∀ j, j < i → bytesValid B j) :
    readFrames k B = .frameError (k + i) (B.getD (3 * i + 2) 0#8)
      (crc8 (B.getD (3 * i) 0#8) (B.getD (3 * i + 1) 0#8)) := by
  induction i generalizing k B with
  | zero =>
    match B, hlen with
    | b0 :: b1 :: b2 :: B, _ =>
      have hfirst : validate b0 b1 b2 = .checksumError b2 (crc8 b0 b1) := if_neg hbad
      rw [readFrames, hfirst]
      rfl
  | succ i ih =>
    match B, hlen with
    | b0 :: b1 :: b2 :: B, hlen =>
      have hfirst : validate b0 b1 b2 = .ok := if_pos (bytesValid_zero.1 (hgood 0 (Nat.succ_pos i)))
      have hrest := ih (k := k + 1) (Nat.le_of_add_le_add_right (b := 3) hlen) hbad
        fun j hj => bytesValid_succ.1 (hgood (j + 1) (Nat.succ_lt_succ hj))
      rw [readFrames, hfirst, hrest, Nat.add_assoc, Nat.add_comm 1 i]
      rfl

theorem readWordsOf_of_legal {B : List Byte} (h0 : B.length ≠ 0) (h3 : B.length % 3 = 0) :
    readWordsOf B = readFrames 0 B :=
  if_neg (Bool.eq_false_iff.1 (badLength_eq_false h0 h3))

theorem readWordsOf_of_valid {B : List Byte} (h0 : B.length ≠ 0) (h3 : B.length % 3 = 0)
    (hvalid : ∀ k, k < B.length / 3 → bytesValid B k) :
    readWordsOf B = .ok ((List.range (B.length / 3)).map (bytesWord B)) := by
  rw [readWordsOf_of_legal h0 h3, readFrames_of_valid (by omega) hvalid]

theorem readWordsOf_of_first_bad {B : List Byte} {k : Nat} (h3 : B.length % 3 = 0)
    (hk : k < B.length / 3) (hbad : ¬ bytesValid B k) (hgood : ∀ j, j < k → bytesValid B j) :
    readWordsOf B = .frameError k (B.getD (3 * k + 2) 0#8)
      (crc8 (B.getD (3 * k) 0#8) (B.getD (3 * k + 1) 0#8)) := by
  rw [readWordsOf_of_legal (by omega) h3, readFrames_of_first_bad (by omega) hbad hgood, Nat.zero_add]

/-- Settles O19: the length first, then the first bad frame, then the words of frames that are all valid. -/
theorem readWordsOfReportsTheFirstMismatch : Obligations.ReadWordsOfReportsTheFirstMismatch :=
  fun _ => ⟨fun hbad => if_pos (badLength_eq_true_iff.2 hbad), fun h0 h3 =>
    ⟨fun _ => readWordsOf_of_first_bad h3, readWordsOf_of_valid h0 h3⟩⟩

/-! ### `write_words` (R72) -/

theorem writeWordsOf_cons (w : Word16) (W : List Word16) : writeWordsOf (w :: W) = frameOf w ++ writeWordsOf W :=
  List.flatMap_cons

theorem length_frameOf (w : Word16) : (frameOf w).length = 3 := rfl

theorem length_writeWordsOf (W : List Word16) : (writeWordsOf W).length = 3 * W.length := by
  induction W with
  | nil => rfl
  | cons w W ih =>
    rw [writeWordsOf_cons, List.length_append, length_frameOf, ih, List.length_cons]
    omega

/-- R72: byte `3k + i` of the frames of `W`, whatever follows them, is byte `i` of the frame of `W[k]`. -/
theorem getD_writeWordsOf_append {W : List Word16} {k i : Nat} (hk : k < W.length) (hi : i < 3) (rest : List Byte) :
    (writeWordsOf W ++ rest).getD (3 * k + i) 0#8 = (frameOf (W.getD k 0#16)).getD i 0#8 := by
  induction W generalizing k with
  | nil => cases hk
  | cons w W ih =>
    rw [writeWordsOf_cons, List.append_assoc]
    cases k with
    | zero =>
      rw [Nat.mul_zero, Nat.zero_add]
      exact List.getD_append _ _ _ _ hi
    | succ k =>
      have hplace : 3 * (k + 1) + i = 3 + (3 * k + i) := by omega
      rw [hplace, List.getD_append_right _ _ _ _ (Nat.le_add_right 3 _), length_frameOf, Nat.add_sub_cancel_left,
        ih (Nat.lt_of_succ_lt_succ hk), List.getD_cons_succ]

/-- Settles O20: the length, then the three bytes of each frame. -/
theorem writeWordsOfEmitsAFrameForEachWord : Obligations.WriteWordsOfEmitsAFrameForEachWord := by
  refine ⟨rfl, fun W => ⟨length_writeWordsOf W, fun k hk => ?_⟩⟩
  have hbyte {i : Nat} (hi : i < 3) := getD_writeWordsOf_append hk hi []
  rw [List.append_nil] at hbyte
  exact ⟨hbyte (i := 0) (by decide), hbyte (i := 1) (by decide), hbyte (i := 2) (by decide)⟩

/-! ### READ_WORDS: a rule for each outcome (R73, R74, R75) -/

theorem exec_of_commandBlock {i : Instr} {s : State} {c : Block} (h : commandBlock i s.block = c) :
    exec i s = .next { s with block := c } := by
  rw [exec_eq, h]
  rfl

/-- A command's next state is the one whose block is the command's meaning. -/
theorem eq_of_exec {i : Instr} {s t : State} (h : exec i s = .next t) :
    t = { s with block := commandBlock i s.block } := by
  cases (exec_eq i s).symm.trans h
  rfl

/-- R73, R75: LEN passes the checks of READ_WORDS. -/
def LegalTransfer (b : Block) : Prop := lenCount b ≠ 0 ∧ lenCount b % 3 = 0 ∧ lenCount b ≤ 3 * b.maxFrames

section ReadWords

variable {b : Block}

theorem readWordsBlock_fatal (h : lenCount b = 0 ∨ lenCount b % 3 ≠ 0) : readWordsBlock b = raiseFatal b b.len :=
  readWordsBlock_of_badLength (badLength_eq_true_iff.2 h)

theorem readWordsBlock_beyond (h0 : lenCount b ≠ 0) (h3 : lenCount b % 3 = 0) (hcap : 3 * b.maxFrames < lenCount b) :
    readWordsBlock b = lenRange b := by
  rw [readWordsBlock_of_legal (badLength_eq_false h0 h3), readWordsWithin_beyond hcap]

/-- R74: the block that FRAME_MISMATCH at frame `k` leaves. -/
def frameMismatchBlock (b : Block) (k : Nat) : Block :=
  (reportMismatch b codeFrameMismatch k (fbufAt b (3 * k + 2))
    (crc8 (fbufAt b (3 * k)) (fbufAt b (3 * k + 1)))).setResult 0#32

theorem readWordsBlock_mismatch (h : LegalTransfer b) {k : Nat} (hk : k < lenCount b / 3) (hbad : ¬ frameValid b k)
    (hgood : ∀ j, j < k → frameValid b j) : readWordsBlock b = frameMismatchBlock b k := by
  obtain ⟨h0, h3, hcap⟩ := h
  rw [readWordsBlock_of_legal (badLength_eq_false h0 h3),
    readWordsWithin_bad (Nat.not_lt.2 hcap) (firstBadFrame_eq_of_first hk hbad hgood), frameMismatchBlock]

theorem readWordsBlock_valid (h : LegalTransfer b) (hvalid : ∀ k, k < lenCount b / 3 → frameValid b k) :
    readWordsBlock b = succeed (commitFrames (lenCount b / 3) 0 b) (BitVec.ofNat 32 (lenCount b / 3)) := by
  obtain ⟨h0, h3, hcap⟩ := h
  have hpass : firstBadFrame b (lenCount b / 3) 0 = none :=
    (firstBadFrame_none_iff b _ 0).2 fun j _ hj => hvalid j (by omega)
  rw [readWordsBlock_of_legal (badLength_eq_false h0 h3), readWordsWithin_good (Nat.not_lt.2 hcap) hpass]

/-- R74: the frames checked are all valid, or one is the first that is not. -/
theorem all_valid_or_first_bad (b : Block) (n : Nat) :
    (∀ k, k < n → frameValid b k) ∨ ∃ k, k < n ∧ ¬ frameValid b k ∧ ∀ j, j < k → frameValid b j := by
  cases hpass : firstBadFrame b n 0 with
  | none => exact .inl fun k hk => (firstBadFrame_none_iff b n 0).1 hpass k (Nat.zero_le k) (by omega)
  | some bad =>
    obtain ⟨-, hlt, hbad, hgood, -, -, -⟩ := firstBadFrame_some hpass
    exact .inr ⟨bad.index, by omega, hbad, fun j => hgood j (Nat.zero_le j)⟩

end ReadWords

/-- The outcomes of READ_WORDS with their conditions: `ReadWordsResult b c` lists every way the command can take block
`b` to `c`. -/
inductive ReadWordsResult (b : Block) : Block → Prop
  | fatal (hlen : lenCount b = 0 ∨ lenCount b % 3 ≠ 0) : ReadWordsResult b (raiseFatal b b.len)
  | beyond (h0 : lenCount b ≠ 0) (h3 : lenCount b % 3 = 0) (hcap : 3 * b.maxFrames < lenCount b) :
    ReadWordsResult b (lenRange b)
  | mismatch (h : LegalTransfer b) (k : Nat) (hk : k < lenCount b / 3) (hbad : ¬ frameValid b k)
    (hgood : ∀ j, j < k → frameValid b j) : ReadWordsResult b (frameMismatchBlock b k)
  | completed (h : LegalTransfer b) (hvalid : ∀ k, k < lenCount b / 3 → frameValid b k) :
    ReadWordsResult b (succeed (commitFrames (lenCount b / 3) 0 b) (BitVec.ofNat 32 (lenCount b / 3)))

/-- R74: READ_WORDS has one of the outcomes listed. -/
theorem readWordsBlock_result (b : Block) : ReadWordsResult b (readWordsBlock b) := by
  by_cases hlen : lenCount b = 0 ∨ lenCount b % 3 ≠ 0
  · rw [readWordsBlock_fatal hlen]
    exact .fatal hlen
  obtain ⟨h0, h3⟩ : lenCount b ≠ 0 ∧ lenCount b % 3 = 0 := by omega
  by_cases hcap : 3 * b.maxFrames < lenCount b
  · rw [readWordsBlock_beyond h0 h3 hcap]
    exact .beyond h0 h3 hcap
  have h : LegalTransfer b := ⟨h0, h3, Nat.not_lt.1 hcap⟩
  obtain hvalid | ⟨k, hk, hbad, hgood⟩ := all_valid_or_first_bad b (lenCount b / 3)
  · rw [readWordsBlock_valid h hvalid]
    exact .completed h hvalid
  · rw [readWordsBlock_mismatch h hk hbad hgood]
    exact .mismatch h k hk hbad hgood

namespace ReadWordsResult

variable {b c : Block}

/-- R79: CODE is OK exactly when the length is legal and every frame is valid. -/
theorem code_eq_ok_iff (h : ReadWordsResult b c) :
    c.code = 1#4 ↔ LegalTransfer b ∧ ∀ k, k < lenCount b / 3 → frameValid b k := by
  cases h with
  | fatal hlen => exact iff_of_false (by simp [raiseFatal_eq]) fun ⟨⟨h0, h3, _⟩, _⟩ => by omega
  | beyond _ _ hcap => exact iff_of_false (by simp [lenRange_eq]) fun ⟨⟨_, _, hwithin⟩, _⟩ => by omega
  | mismatch _ k hk hbad => exact iff_of_false (show ¬ (3#4 = 1#4) by decide) fun ⟨_, hvalid⟩ => hbad (hvalid k hk)
  | completed hlegal hvalid => exact iff_of_true rfl ⟨hlegal, hvalid⟩

/-- R79: WBUF is written on success alone. -/
theorem wbuf_kept (h : ReadWordsResult b c) (hcode : c.code ≠ 1#4) : c.wbuf = b.wbuf := by
  cases h with
  | completed => exact absurd rfl hcode
  | _ => rfl

/-- R74: ERR_CRC and ERR_POS are written on FRAME_MISMATCH alone. -/
theorem errors_kept (h : ReadWordsResult b c) (hcode : c.code ≠ 3#4) :
    c.errCrc = b.errCrc ∧ c.errPos = b.errPos := by
  cases h with
  | mismatch => exact absurd rfl hcode
  | completed =>
    rw [commitFrames_only_wbuf]
    exact ⟨rfl, rfl⟩
  | _ => exact ⟨rfl, rfl⟩

/-- R79: without success RESULT is kept, or cleared on FRAME_MISMATCH. -/
theorem result_kept_or_cleared (h : ReadWordsResult b c) (hcode : c.code ≠ 1#4) :
    c.result = b.result ∨ (c.code = 3#4 ∧ c.result = 0#32) := by
  cases h with
  | mismatch => exact .inr ⟨rfl, rfl⟩
  | completed => exact absurd rfl hcode
  | _ => exact .inl rfl

/-- R74: the frame a FRAME_MISMATCH reports is the first that is not valid. -/
theorem first_bad_of_mismatch (h : ReadWordsResult b c) (hcode : c.code = 3#4) :
    ∃ k, k < lenCount b / 3 ∧ c.errPos = errPosWord k ∧ ∀ j, j < k → frameValid b j := by
  cases h with
  | mismatch _ k hk _ hgood => exact ⟨k, hk, rfl, hgood⟩
  | fatal => exact absurd (show 7#4 = 3#4 from hcode) (by decide)
  | beyond => exact absurd (show 6#4 = 3#4 from hcode) (by decide)
  | completed => exact absurd (show 1#4 = 3#4 from hcode) (by decide)

end ReadWordsResult

/-- R28: the fields of ERR_POS as numbers. -/
theorem errPosWord_frameIndex (k : Nat) : ((errPosWord k).extractLsb' 0 16).toNat = k % 2 ^ 16 := by
  rw [errPosWord, BitVec.extractLsb'_append_eq_right, BitVec.toNat_ofNat]

theorem errPosWord_byteOffset (k : Nat) : ((errPosWord k).extractLsb' 16 16).toNat = 3 * k % 2 ^ 16 := by
  rw [errPosWord, BitVec.extractLsb'_append_eq_left, BitVec.toNat_ofNat]

/-- Settles O30, by the outcomes of READ_WORDS. -/
theorem failedReadWordsGivesNoPartialResult : Obligations.FailedReadWordsGivesNoPartialResult := by
  intro s t hexec
  obtain rfl := eq_of_exec hexec
  have hresult := readWordsBlock_result s.block
  refine ⟨hresult.code_eq_ok_iff.trans (by simp only [LegalTransfer, lenCount, and_assoc]),
    fun hcode => ⟨hresult.wbuf_kept hcode, ?_⟩, fun hcode j hj => ?_⟩
  · obtain hkept | ⟨-, hcleared⟩ := hresult.result_kept_or_cleared hcode
    · exact .inr hkept
    · exact .inl hcleared
  · obtain ⟨k, -, hpos, hgood⟩ := hresult.first_bad_of_mismatch hcode
    have hidx : j < ((readWordsBlock s.block).errPos.extractLsb' 0 16).toNat := hj
    rw [hpos, errPosWord_frameIndex] at hidx
    exact hgood j (hidx.trans_le (Nat.mod_le k _))

/-- R38: what a reading takes outside the registers READ_WORDS writes. -/
theorem readReg_of_operands_kept {b c : Block} (hmax : c.maxFrames = b.maxFrames) (hoperand : c.operand = b.operand)
    (hlen : c.len = b.len) (hfbuf : c.fbuf = b.fbuf) {r : Reg} (hstatus : r ≠ .status) (hresult : r ≠ .result)
    (hcrc : r ≠ .errCrc) (hpos : r ≠ .errPos) (hflen : r ≠ .fatalLen) (hwbuf : ∀ j, r ≠ .wbuf j) :
    readReg c r = readReg b r := by
  cases r with
  | id => rfl
  | config => rfl
  | cmd => rfl
  | capacity => rw [readReg, capacityWord, hmax, readReg, capacityWord]
  | operand => rw [readReg, hoperand, readReg]
  | len => rw [readReg, hlen, readReg]
  | fbuf i => rw [readReg, fbufAt, hfbuf, readReg, fbufAt]
  | status => exact absurd rfl hstatus
  | result => exact absurd rfl hresult
  | errCrc => exact absurd rfl hcrc
  | errPos => exact absurd rfl hpos
  | fatalLen => exact absurd rfl hflen
  | wbuf j => exact absurd rfl (hwbuf j)

/-- Settles O26: the operands and FBUF by what any command leaves, the results by the outcomes of READ_WORDS. -/
theorem readWordsChangesOnlyItsResults : Obligations.ReadWordsChangesOnlyItsResults := by
  intro s t hexec
  obtain rfl := eq_of_exec hexec
  have houtcome := readWordsBlock_outcome s.block
  have hresult := readWordsBlock_result s.block
  obtain ⟨hmax, hoperand, hlen⟩ := houtcome.operands_kept
  have hfbuf := houtcome.fbuf_kept (by decide)
  refine ⟨hoperand, hlen, hfbuf, hmax, fun _ => readReg_of_operands_kept hmax hoperand hlen hfbuf, fun j hj => ?_,
    hresult.errors_kept, fun hok hmismatch => ?_, fun h0 h3 => ?_, rfl, rfl, rfl⟩
  · refine congrArg (BitVec.setWidth 32) ?_
    obtain hcode | habove := hj
    · exact congrArg (List.getD · j 0#16) (hresult.wbuf_kept hcode)
    · exact houtcome.wbufAt_kept (.inr habove)
  · exact (hresult.result_kept_or_cleared hok).resolve_right fun ⟨hcode, _⟩ => hmismatch hcode
  · exact houtcome.fatal_kept_or_entered.resolve_right fun ⟨_, hbad, _⟩ =>
      absurd hbad (Bool.eq_false_iff.1 (badLength_eq_false h0 h3))

/-- R74: the commit pass over `n` frames puts their words in front of the words from `n` on. -/
theorem commitFrames_eq {n : Nat} {b : Block} (hn : n ≤ b.wbuf.length) :
    commitFrames n 0 b = { b with wbuf := (List.range n).map (frameWord b) ++ b.wbuf.drop n } := by
  rw [commitFrames_only_wbuf, commitFrames_wbuf n 0 b (by omega), List.take_zero, List.nil_append, Nat.zero_add,
    List.range_eq_range']

/-- R74: the whole block after a READ_WORDS that succeeds. -/
theorem readWordsBlock_completes {b : Block} (hwf : Memory.wf b) (h : LegalTransfer b)
    (hvalid : ∀ k, k < lenCount b / 3 → frameValid b k) :
    readWordsBlock b = { b with
      wbuf := (List.range (lenCount b / 3)).map (frameWord b) ++ b.wbuf.drop (lenCount b / 3)
      result := BitVec.ofNat 32 (lenCount b / 3)
      code := 1#4 } := by
  obtain ⟨-, -, -, hsize⟩ := hwf
  have ⟨_, _, hcap⟩ := h
  rw [readWordsBlock_valid h hvalid, commitFrames_eq (by omega)]
  rfl

/-- Settles O22: the rule of READ_WORDS on valid frames. -/
theorem readWordsCompletesOnValidFrames : Obligations.ReadWordsCompletesOnValidFrames :=
  fun _ hwf h0 h3 hcap hvalid =>
    exec_of_commandBlock (i := .readWords) (readWordsBlock_completes hwf ⟨h0, h3, hcap⟩ hvalid)

/-! ### READ_WORDS is `read_words` of FBUF[0 .. LEN-1] (R74) -/

theorem LegalTransfer.length_take {b : Block} (h : LegalTransfer b) (hwf : Memory.wf b) :
    (b.fbuf.take (lenCount b)).length = lenCount b := by
  obtain ⟨-, -, hcap⟩ := h
  obtain ⟨-, -, hsize, -⟩ := hwf
  exact List.length_take_of_le (hsize.symm ▸ hcap)

/-- R70: the frames of FBUF[0 .. LEN-1] are those of FBUF. -/
theorem bytesValid_fbuf_take {b : Block} {n k : Nat} (hk : k < n / 3) :
    bytesValid (b.fbuf.take n) k ↔ frameValid b k :=
  (bytesValid_take hk).trans frameValid_iff.symm

/-- R71, R74: on valid frames `read_words` gives the words that READ_WORDS commits. -/
theorem readWordsOf_fbuf_of_valid {b : Block} (hwf : Memory.wf b) (h : LegalTransfer b)
    (hvalid : ∀ k, k < lenCount b / 3 → frameValid b k) :
    readWordsOf (b.fbuf.take (lenCount b)) = .ok ((List.range (lenCount b / 3)).map (frameWord b)) := by
  have hlength := h.length_take hwf
  obtain ⟨h0, h3, -⟩ := h
  rw [readWordsOf_of_valid (by rwa [hlength]) (by rwa [hlength])
    (by rw [hlength]; exact fun k hk => (bytesValid_fbuf_take hk).2 (hvalid k hk)), hlength]
  exact congrArg ReadOutcome.ok (List.map_congr_left fun k hk => bytesWord_take (List.mem_range.1 hk))

/-- R71, R74: `read_words` reports the bad frame that READ_WORDS reports. -/
theorem readWordsOf_fbuf_of_first_bad {b : Block} (hwf : Memory.wf b) (h : LegalTransfer b) {k : Nat}
    (hk : k < lenCount b / 3) (hbad : ¬ frameValid b k) (hgood : ∀ j, j < k → frameValid b j) :
    readWordsOf (b.fbuf.take (lenCount b)) =
      .frameError k (fbufAt b (3 * k + 2)) (crc8 (fbufAt b (3 * k)) (fbufAt b (3 * k + 1))) := by
  have hlength := h.length_take hwf
  obtain ⟨-, h3, -⟩ := h
  rw [readWordsOf_of_first_bad (by rwa [hlength]) (by rwa [hlength]) (mt (bytesValid_fbuf_take hk).1 hbad)
    fun j hj => (bytesValid_fbuf_take (hj.trans hk)).2 (hgood j hj), getD_take_of_lt (by omega),
    getD_take_of_lt (by omega), getD_take_of_lt (by omega)]
  rfl

/-- Settles O21: the checks of the length, then the two outcomes of `read_words` on a legal one. -/
theorem readWordsCarriesOutReadWordsOf : Obligations.ReadWordsCarriesOutReadWordsOf := by
  refine ⟨decode_encode .readWords, fun s hwf => ⟨fun hlen => ?_, fun h0 h3 hcap => ?_, fun h0 h3 hcap => ?_⟩⟩
  · exact exec_of_commandBlock (i := .readWords) (readWordsBlock_fatal hlen)
  · exact exec_of_commandBlock (i := .readWords) (readWordsBlock_beyond h0 h3 hcap)
  have hlegal : LegalTransfer s.block := ⟨h0, h3, hcap⟩
  obtain hvalid | ⟨k, hk, hbad, hgood⟩ := all_valid_or_first_bad s.block (s.block.len.toNat / 3)
  · have hread : readWordsOf (s.block.fbuf.take s.block.len.toNat) = _ := readWordsOf_fbuf_of_valid hwf hlegal hvalid
    rw [hread]
    exact ⟨by rw [List.length_map, List.length_range, lenCount],
      exec_of_commandBlock (i := .readWords) (readWordsBlock_completes hwf hlegal hvalid)⟩
  · have hread : readWordsOf (s.block.fbuf.take s.block.len.toNat) = _ :=
      readWordsOf_fbuf_of_first_bad hwf hlegal hk hbad hgood
    rw [hread]
    exact exec_of_commandBlock (i := .readWords) (readWordsBlock_mismatch hlegal hk hbad hgood)

/-! ### One changed byte (R78) -/

/-- A byte outside a frame does not bear on its validity. -/
theorem frameValid_setFbufAt_other {b : Block} {i j : Nat} (v : Byte) (h : i < 3 * j ∨ 3 * j + 2 < i) :
    frameValid (setFbufAt b i v) j ↔ frameValid b j := by
  rw [frameValid, fbufAt_setFbufAt_other _ _ _ _ (by omega), fbufAt_setFbufAt_other _ _ _ _ (by omega),
    fbufAt_setFbufAt_other _ _ _ _ (by omega), frameValid]

/-- R66 (d), R78: a valid frame with one byte changed is not valid. -/
theorem not_frameValid_setFbufAt {b : Block} {i k : Nat} {v : Byte} (hi : i < b.fbuf.length)
    (hik : i = 3 * k ∨ i = 3 * k + 1 ∨ i = 3 * k + 2) (hv : v ≠ fbufAt b i) (hvalid : frameValid b k) :
    ¬ frameValid (setFbufAt b i v) k := by
  obtain ⟨hhigh, hlow, hcrc⟩ := oneChangedByteMakesAFrameInvalid _ _ _ v hvalid
  have hsame := fbufAt_setFbufAt_same b i v hi
  have hother (j : Nat) (hj : i ≠ j) := fbufAt_setFbufAt_other b i j v hj
  rw [frameValid, Bool.not_eq_true]
  obtain rfl | rfl | rfl := hik
  · rw [hsame, hother _ (by omega), hother _ (by omega), hhigh hv]
  · rw [hsame, hother _ (by omega), hother _ (by omega), hlow hv]
  · rw [hsame, hother _ (by omega), hother _ (by omega), hcrc hv]

/-- Settles O29: the changed frame is the first that is not valid, and the capacity bounds its number. -/
theorem changedByteIsReportedAtItsFrame : Obligations.ChangedByteIsReportedAtItsFrame := by
  intro s k i v hwf h3 hcap hvalid hk hik hv
  obtain ⟨-, hmax, hsize, -⟩ := hwf
  rw [Config.maxCapacity] at hmax
  have hlegal : LegalTransfer (setFbufAt s.block i v) := ⟨show s.block.len.toNat ≠ 0 by omega, h3, hcap⟩
  have hbad := not_frameValid_setFbufAt (by omega) hik hv (hvalid k hk)
  have hgood (j : Nat) (hj : j < k) : frameValid (setFbufAt s.block i v) j :=
    (frameValid_setFbufAt_other v (by omega)).2 (hvalid j (hj.trans hk))
  exact ⟨_, exec_of_commandBlock (i := .readWords) (readWordsBlock_mismatch hlegal hk hbad hgood), rfl,
    (errPosWord_frameIndex k).trans (Nat.mod_eq_of_lt (by omega)),
    (errPosWord_byteOffset k).trans (Nat.mod_eq_of_lt (by omega))⟩

/-! ### WRITE_WORDS (R75, R76) -/

/-- R76: WRITE_WORDS writes CODE alone, or CODE OK, RESULT and the FBUF entries below 3*LEN. -/
theorem writeWordsBlock_fields (b : Block) :
    ∃ f r code, writeWordsBlock b = { b with fbuf := f, result := r, code := code } ∧
      (∀ i, 3 * lenCount b ≤ i → f.getD i 0#8 = b.fbuf.getD i 0#8) ∧
      (code = 1#4 ∨ (f = b.fbuf ∧ r = b.result)) := by
  by_cases hcap : b.maxFrames < lenCount b
  · exact ⟨_, _, _, writeWordsBlock_beyond hcap, fun _ _ => rfl, .inr ⟨rfl, rfl⟩⟩
  · refine ⟨(emitFrames (lenCount b) 0 b).fbuf, BitVec.ofNat 32 (3 * lenCount b), codeOk, ?_,
      fun i hi => fbufAt_emitFrames_above b (by omega), .inl rfl⟩
    rw [writeWordsBlock_within hcap, emitFrames_only_fbuf]
    rfl

/-- R38: STATUS, RESULT and FBUF are the only registers whose reading takes the fields written here. -/
theorem readReg_of_fbuf_written (b : Block) (f : List Byte) (result : Word32) (code : BitVec 4) {r : Reg}
    (hstatus : r ≠ .status) (hresult : r ≠ .result) (hfbuf : ∀ i, r ≠ .fbuf i) :
    readReg { b with fbuf := f, result := result, code := code } r = readReg b r := by
  cases r with
  | status => exact absurd rfl hstatus
  | result => exact absurd rfl hresult
  | fbuf i => exact absurd rfl (hfbuf i)
  | _ => rfl

/-- Settles O27, by the fields WRITE_WORDS writes. -/
theorem writeWordsChangesOnlyItsResults : Obligations.WriteWordsChangesOnlyItsResults := by
  intro s t hexec
  obtain ⟨f, result, code, hblock, habove, hfailed⟩ := writeWordsBlock_fields s.block
  rw [exec_of_commandBlock (i := .writeWords) hblock] at hexec
  cases hexec
  refine ⟨fun _ => readReg_of_fbuf_written s.block f result code, fun i hi => congrArg (BitVec.setWidth 32) ?_,
    fun hcode => (hfailed.resolve_left hcode).2, rfl, rfl, rfl, rfl, rfl, rfl⟩
  obtain hcode | hlen := hi
  · exact congrArg (List.getD · i 0#8) (hfailed.resolve_left hcode).1
  · exact habove i hlen

/-- Settles O24: the rules of the two commands on lengths beyond the capacity. -/
theorem lengthBeyondCapacitySetsOnlyTheCode : Obligations.LengthBeyondCapacitySetsOnlyTheCode :=
  fun _ => ⟨fun hcap =>
      ⟨fun ⟨h0, h3⟩ => exec_of_commandBlock (i := .readWords) (readWordsBlock_beyond h0 h3 hcap),
        fun h3 => exec_of_commandBlock (i := .readWords) (readWordsBlock_fatal (.inr h3))⟩,
    fun hcap => exec_of_commandBlock (i := .writeWords) (writeWordsBlock_beyond hcap)⟩

/-- The first `n` entries of a list, read one by one. -/
theorem map_range_getD {α : Type} {l : List α} {n : Nat} (hn : n ≤ l.length) (d : α) :
    (List.range n).map (l.getD · d) = l.take n := by
  apply List.ext_getElem
  · rw [List.length_map, List.length_range, List.length_take_of_le hn]
  · intro i hi _
    have hlt : i < l.length := by rw [List.length_map, List.length_range] at hi; omega
    rw [List.getElem_map, List.getElem_range, List.getElem_take, List.getD_eq_getElem l d hlt]

/-- R72, R76: the loop over the first `m` words of WBUF puts their frames in front of FBUF[3m] and above. -/
theorem emitFrames_eq {b : Block} {m : Nat} (hwf : Memory.wf b) (hm : m ≤ b.maxFrames) :
    emitFrames m 0 b = { b with fbuf := writeWordsOf (b.wbuf.take m) ++ b.fbuf.drop (3 * m) } := by
  obtain ⟨-, -, hfbuf, hwbuf⟩ := hwf
  have hframes : (List.range' 0 m).flatMap (fun j => frameOf (wbufAt b j)) = writeWordsOf (b.wbuf.take m) := by
    rw [← map_range_getD (by omega) 0#16, writeWordsOf, List.flatMap_map, List.range_eq_range']
    rfl
  rw [emitFrames_only_fbuf, emitFrames_fbuf m 0 b (by omega), hframes, Nat.mul_zero, List.take_zero, List.nil_append,
    Nat.zero_add]

/-- R76: the whole block after a WRITE_WORDS within the capacity. -/
theorem writeWordsBlock_completes {b : Block} (hwf : Memory.wf b) (hcap : lenCount b ≤ b.maxFrames) :
    writeWordsBlock b = { b with
      fbuf := writeWordsOf (b.wbuf.take (lenCount b)) ++ b.fbuf.drop (3 * lenCount b)
      result := BitVec.ofNat 32 (3 * lenCount b)
      code := 1#4 } := by
  rw [writeWordsBlock_within (Nat.not_lt.2 hcap), emitFrames_eq hwf hcap]
  rfl

/-- Settles O23: beyond the capacity and within it. -/
theorem writeWordsCarriesOutWriteWordsOf : Obligations.WriteWordsCarriesOutWriteWordsOf :=
  ⟨decode_encode .writeWords, fun _ hwf =>
    ⟨fun hcap => exec_of_commandBlock (i := .writeWords) (writeWordsBlock_beyond hcap),
      fun hcap => exec_of_commandBlock (i := .writeWords) (writeWordsBlock_completes hwf hcap)⟩⟩

/-! ### The round trip (R77) -/

/-- R72: a frame that `write_words` emits is valid and carries its word, whatever follows the frames. -/
theorem writeWordsOf_frame {W : List Word16} {k : Nat} (hk : k < W.length) (rest : List Byte) :
    bytesValid (writeWordsOf W ++ rest) k ∧ bytesWord (writeWordsOf W ++ rest) k = W.getD k 0#16 := by
  have hbyte {i : Nat} (hi : i < 3) := getD_writeWordsOf_append hk hi rest
  have h0 := hbyte (i := 0) (by decide)
  rw [Nat.add_zero] at h0
  rw [bytesValid, bytesWord, h0, hbyte (i := 1) (by decide), hbyte (i := 2) (by decide)]
  exact ⟨rfl, joinWord_hiByte_loByte _⟩

/-- R77: the block after `WR LEN, m`, `WR CMD, WRITE_WORDS` and `WR LEN, 3m`. -/
def encodedBlock (b : Block) (m : Nat) : Block :=
  { b with
    len := BitVec.ofNat 16 (3 * m)
    fbuf := writeWordsOf (b.wbuf.take m) ++ b.fbuf.drop (3 * m)
    result := BitVec.ofNat 32 (3 * m)
    code := 1#4 }

section RoundTrip

variable {b : Block} {m : Nat}

theorem Memory.wf_encodedBlock (hwf : Memory.wf b) (hm : m ≤ b.maxFrames) : Memory.wf (encodedBlock b m) := by
  have ⟨_, _, hfbuf, hwbuf⟩ := hwf
  refine Memory.wf_of_sizes hwf rfl ?_ rfl
  rw [encodedBlock, List.length_append, length_writeWordsOf, List.length_take, List.length_drop]
  omega

/-- A count that a legal capacity bounds fits LEN. -/
theorem toNat_ofNat_count {n : Nat} (h : n ≤ 3 * Config.maxCapacity) : (BitVec.ofNat 16 n).toNat = n := by
  rw [Config.maxCapacity] at h
  rw [BitVec.toNat_ofNat, Nat.mod_eq_of_lt (by omega)]

theorem lenCount_encodedBlock (hwf : Memory.wf b) (hm : m ≤ b.maxFrames) : lenCount (encodedBlock b m) = 3 * m := by
  obtain ⟨-, hmax, -, -⟩ := hwf
  exact toNat_ofNat_count (Nat.mul_le_mul_left 3 (hm.trans hmax))

/-- R77: the frames written back are valid, and carry the words of WBUF. -/
theorem encodedBlock_frame (hwf : Memory.wf b) (hm : m ≤ b.maxFrames) {k : Nat} (hk : k < m) :
    frameValid (encodedBlock b m) k ∧ frameWord (encodedBlock b m) k = wbufAt b k := by
  obtain ⟨-, -, -, hwbuf⟩ := hwf
  obtain ⟨hvalid, hword⟩ := writeWordsOf_frame (W := b.wbuf.take m) (k := k) (by rw [List.length_take]; omega)
    (b.fbuf.drop (3 * m))
  exact ⟨frameValid_iff.2 hvalid, hword.trans (getD_take_of_lt hk _)⟩

/-- R77: READ_WORDS of the frames written puts WBUF's own words into WBUF. -/
theorem readWordsBlock_encodedBlock (hwf : Memory.wf b) (hm : m ≤ b.maxFrames) (hpos : 1 ≤ m) :
    readWordsBlock (encodedBlock b m) = { encodedBlock b m with result := BitVec.ofNat 32 m } := by
  have hcount : lenCount (encodedBlock b m) / 3 = m := by rw [lenCount_encodedBlock hwf hm]; omega
  have hlegal : LegalTransfer (encodedBlock b m) := by
    rw [LegalTransfer, lenCount_encodedBlock hwf hm]
    exact ⟨by omega, Nat.mul_mod_right 3 m, Nat.mul_le_mul_left 3 hm⟩
  have hwords : (List.range m).map (frameWord (encodedBlock b m)) = b.wbuf.take m := by
    have ⟨_, _, _, hwbuf⟩ := hwf
    rw [← map_range_getD (by omega) 0#16]
    exact List.map_congr_left fun k hk => (encodedBlock_frame hwf hm (List.mem_range.1 hk)).2
  have hwbuf : (List.range m).map (frameWord (encodedBlock b m)) ++ (encodedBlock b m).wbuf.drop m = b.wbuf := by
    rw [hwords]
    exact List.take_append_drop m b.wbuf
  rw [readWordsBlock_completes (Memory.wf_encodedBlock hwf hm) hlegal
    (by rw [hcount]; exact fun k hk => (encodedBlock_frame hwf hm hk).1), hcount, hwbuf]
  rfl

/-- R39, R55: a count written to LEN. -/
theorem writtenBlock_len (c : Block) (n : Nat) :
    writtenBlock c .len (BitVec.ofNat 32 n) = c.setLen (BitVec.ofNat 16 n) := by
  rw [writtenBlock_register _ _ (by decide), writeReg, ← BitVec.setWidth_eq_extractLsb' (by decide),
    BitVec.setWidth_ofNat_of_le (by decide)]

/-- R59: the two lines of a host program that write LEN and run a command. -/
theorem run_len_command {i : Instr} {n len epoch : Nat} {rest : List HostEvent} {a : Option Response}
    (hrun : b.fatal = false) :
    run (n + 2) ⟨b, wr .len (BitVec.ofNat 32 len) :: wrCommand i :: rest, a, epoch⟩ =
      run n ⟨commandBlock i (b.setLen (BitVec.ofNat 16 len)), rest, some .writeAccepted, epoch⟩ := by
  rw [run_wr rfl hrun, writtenBlock_len]
  exact run_wrCommand hrun

theorem writeWords_encodedBlock (hwf : Memory.wf b) (hm : m ≤ b.maxFrames) :
    commandBlock .writeWords (b.setLen (BitVec.ofNat 16 m)) = (encodedBlock b m).setLen (BitVec.ofNat 16 m) := by
  have hcount : lenCount (b.setLen (BitVec.ofNat 16 m)) = m := by
    obtain ⟨-, hmax, -, -⟩ := hwf
    exact toNat_ofNat_count (by omega)
  have hwrite := writeWordsBlock_completes (b := b.setLen (BitVec.ofNat 16 m)) hwf (hcount.trans_le hm)
  rw [hcount] at hwrite
  exact hwrite

/-- R77: the four accesses of the sequence end in READ_WORDS of the frames written. -/
theorem run_writeThenRead {rest : List HostEvent} {a : Option Response} {epoch : Nat} (hwf : Memory.wf b)
    (hrun : b.fatal = false) (hm : m ≤ b.maxFrames) :
    run 4 ⟨b, wr .len (BitVec.ofNat 32 m) :: wrCommand .writeWords :: wr .len (BitVec.ofNat 32 (3 * m)) ::
        wrCommand .readWords :: rest, a, epoch⟩ =
      .next ⟨readWordsBlock (encodedBlock b m), rest, some .writeAccepted, epoch⟩ := by
  rw [run_len_command hrun, writeWords_encodedBlock hwf hm]
  exact run_len_command (n := 0) hrun

end RoundTrip

/-- Settles O28: for `m` at least 1 the read commits WBUF's own words; for `m = 0` LEN is 0 and the read is fatal. -/
theorem writeThenReadGivesTheWordsBack : Obligations.WriteThenReadGivesTheWordsBack := by
  rintro ⟨b, _, a, epoch⟩ m rest hwf hrun hm rfl
  refine ⟨_, run_writeThenRead hwf hrun hm, rfl, fun hpos => ?_, ?_⟩
  · rw [readWordsBlock_encodedBlock hwf hm hpos]
    exact ⟨rfl, hrun, rfl, rfl⟩
  · rintro rfl
    rw [readWordsBlock_fatal (.inl (lenCount_encodedBlock hwf hm))]
    exact ⟨rfl, rfl, rfl⟩

end Sys2Proof.Machine

/-! PROOFS. Exceptions: the fatal entry and the halt it begins, FRAME_MISMATCH as the engine's ChecksumError with the
frame position added, and the order of the checks on a host write. -/

namespace Sys2Proof.Machine

/-! ### The fatal entry (R84) -/

/-- R84: a command that takes a running block to a halted one is READ_WORDS with an illegal length. -/
theorem exec_sets_fatal {i : Instr} {s t : State} (h : exec i s = .next t) (hrun : s.block.fatal = false)
    (hhalt : t.block.fatal = true) : i = .readWords ∧ badLength (lenCount s.block) = true := by
  obtain rfl := eq_of_exec h
  obtain ⟨hkept, -⟩ | ⟨hread, hbad, -, -⟩ := (commandBlock_outcome i s.block).fatal_kept_or_entered
  · cases hhalt.symm.trans (hkept.trans hrun)
  · exact ⟨hread, hbad⟩

/-- Settles O25: the rule of READ_WORDS on an illegal length, then which command can set FATAL. -/
theorem fatalEntryIsPreciseAndOnlyFromReadWords : Obligations.FatalEntryIsPreciseAndOnlyFromReadWords := by
  refine ⟨fun s hlen => exec_of_commandBlock (i := .readWords) (readWordsBlock_fatal hlen),
    fun i s t hexec hrun hhalt => ?_⟩
  obtain ⟨hread, hbad⟩ := exec_sets_fatal hexec hrun hhalt
  exact ⟨hread, badLength_eq_true_iff.1 hbad⟩

/-! ### FRAME_MISMATCH wraps the ChecksumError (R81) -/

/-- R74: a FRAME_MISMATCH is the report of some bad frame within the length. -/
theorem ReadWordsResult.eq_frameMismatchBlock {b c : Block} (h : ReadWordsResult b c) (hcode : c.code = 3#4) :
    ∃ k, k < lenCount b / 3 ∧ ¬ frameValid b k ∧ c = frameMismatchBlock b k := by
  cases h with
  | mismatch _ k hk hbad _ => exact ⟨k, hk, hbad, rfl⟩
  | fatal => exact absurd (show 7#4 = 3#4 from hcode) (by decide)
  | beyond => exact absurd (show 6#4 = 3#4 from hcode) (by decide)
  | completed => exact absurd (show 1#4 = 3#4 from hcode) (by decide)

/-- R67, R70: `validate` on the bytes of a bad frame. -/
theorem validate_of_not_frameValid {b : Block} {k : Nat} (hbad : ¬ frameValid b k) :
    validate (fbufAt b (3 * k)) (fbufAt b (3 * k + 1)) (fbufAt b (3 * k + 2)) =
      .checksumError (fbufAt b (3 * k + 2)) (crc8 (fbufAt b (3 * k)) (fbufAt b (3 * k + 1))) :=
  if_neg (mt validFrame_iff.2 hbad)

theorem frameMismatchBlock_errCrc (b : Block) (k : Nat) :
    (frameMismatchBlock b k).errCrc =
      errCrcWord (fbufAt b (3 * k + 2)) (crc8 (fbufAt b (3 * k)) (fbufAt b (3 * k + 1))) := rfl

/-- R69: CRC_VALIDATE with a frame in OPERAND reports the ChecksumError of the frame's bytes, at position 0. -/
theorem crcValidateBlock_of_frame {b : Block} {b0 b1 b2 e c : Byte} (ho : b.operand = b0 ++ b1 ++ b2)
    (h : validate b0 b1 b2 = .checksumError e c) :
    crcValidateBlock b = reportMismatch (b.setResult ((crc8 b0 b1).setWidth 32)) codeCrcMismatch 0 e c := by
  obtain ⟨hhi, hlo, hcrc⟩ := operandFrame_append b0 b1 b2
  rw [crcValidateBlock_mismatch ho (by rw [hhi, hlo, hcrc, h]), hhi, hlo]

/-- Settles O31: both reports are made of the one `validate` of the frame's bytes. -/
theorem frameMismatchWrapsTheChecksumError : Obligations.FrameMismatchWrapsTheChecksumError := by
  intro s t hexec hcode
  obtain rfl := eq_of_exec hexec
  obtain ⟨k, hk, hbad, hblock⟩ := (readWordsBlock_result s.block).eq_frameMismatchBlock hcode
  simp only [commandBlock, hblock]
  have hvalidate := validate_of_not_frameValid hbad
  refine ⟨k, hk, rfl, ?_, fun u ho =>
    ⟨_, exec_of_commandBlock (i := .crcValidate) (crcValidateBlock_of_frame ho hvalidate), rfl, rfl, rfl⟩⟩
  rw [frameMismatchBlock_errCrc, errCrcWord_expected, errCrcWord_computed, hvalidate]

/-! ### The fatal halt (R85) -/

/-- R85: a halted block answers an access and stays as it is. -/
theorem step_access_halted {s : State} {a : Access} {rest : List HostEvent} (hhalt : s.block.fatal = true)
    (hp : s.pending = .access a :: rest) :
    step s = .next { s with pending := rest, response := some (accessResponse s.block a) } := by
  rw [step_access hp, accessBlock_halted a hhalt]

/-- R85: any list of accesses leaves a halted block as it is. -/
theorem foldl_afterEvent_halted {b : Block} (hhalt : b.fatal = true) {es : List HostEvent}
    (haccess : ∀ e ∈ es, e.isAccess = true) (epoch : Nat) : es.foldl afterEvent (b, epoch) = (b, epoch) := by
  induction es with
  | nil => rfl
  | cons e es ih =>
    obtain ⟨he, hes⟩ := List.forall_mem_cons.1 haccess
    have hkept : afterEvent (b, epoch) e = (b, epoch) := by
      cases e with
      | access a => rw [afterEvent, accessBlock_halted a hhalt]
      | reset => cases he
      | resetDuringCommand v => cases he
    rw [List.foldl_cons, hkept, ih hes]

/-- Settles O45: the answer to each access, the block left by one access and by the accesses of a run. -/
theorem haltLastsUntilReset : Obligations.HaltLastsUntilReset := by
  refine ⟨fun s rest off width v hhalt => ⟨fun hp => ?_, fun hp => ?_⟩, fun n s hhalt haccess => ?_⟩
  · rw [step_access_halted hhalt hp, accessResponse]
    cases reach s.block.maxFrames off width <;> rfl
  · rw [step_access_halted hhalt hp, accessResponse]
    cases reach s.block.maxFrames off width <;> rfl
  · obtain ⟨t, hrun, -, heffect⟩ := run_events n s
    rw [foldl_afterEvent_halted hhalt haccess] at heffect
    exact ⟨t, hrun, congrArg Prod.fst heffect⟩

/-! ### The order of the checks on a host write (R87) -/

/-- R87: a write that reaches CMD is a 32-bit write at CMD's offset. -/
theorem eq_cmdWrite_of_reach {m : Nat} {off : Offset} {width : Width} (v : Word32)
    (h : reach m off width = some .cmd) : HostEvent.access (.write off width v) = cmdWrite v := by
  obtain ⟨rfl, -⟩ := reach_some_w32 h
  rw [eq_regOffset_of_reach h, cmdWrite]

/-- R56: a CMD write of a command's value to a running block leaves the command's meaning. -/
theorem step_cmdWrite_encode {s : State} {i : Instr} {rest : List HostEvent} {c : Block}
    (hrun : s.block.fatal = false) (hp : s.pending = cmdWrite (encode i) :: rest) (hc : commandBlock i s.block = c) :
    step s = .next { s with block := c, pending := rest, response := some .writeAccepted } := by
  rw [step_cmdWrite_of_decode_ok hrun hp (decode_encode i), exec_eq, ← hc]
  rfl

/-- Settles O39: the refusal, the halt, and then the outcome of the CMD write for each check in turn. -/
theorem firstApplicableCheckDecides : Obligations.FirstApplicableCheckDecides := by
  intro s off width v rest hp
  refine ⟨fun hrefused => ?_, fun hreach hhalt => ?_, fun hcmd hrun => ?_⟩
  · obtain ⟨-, hwrite⟩ := refusedAccessChangesNothing s rest off width v hrefused
    exact hwrite hp
  · rw [step_access_halted hhalt hp, accessResponse_accepted v hreach]
  · rw [eq_cmdWrite_of_reach v hcmd] at hp
    refine ⟨step_cmdWrite_of_illegal hrun hp, ?_, ?_, ?_, ?_⟩
    · rintro rfl hlen
      exact step_cmdWrite_encode (i := .readWords) hrun hp (readWordsBlock_fatal hlen)
    · rintro rfl h0 h3 hcap
      exact step_cmdWrite_encode (i := .readWords) hrun hp (readWordsBlock_beyond h0 h3 hcap)
    · rintro rfl hcap
      exact step_cmdWrite_encode (i := .writeWords) hrun hp (writeWordsBlock_beyond hcap)
    · rintro rfl h3 hcap k hk hbad hgood
      have hlegal : LegalTransfer s.block := ⟨show s.block.len.toNat ≠ 0 by omega, h3, hcap⟩
      exact step_cmdWrite_encode (i := .readWords) hrun hp (readWordsBlock_mismatch hlegal hk hbad hgood)

end Sys2Proof.Machine

/-! PROOFS. Reset and commands: the reset values of every register, what a reset leaves from any state, alone or during
a command, and that every command completes. -/

namespace Sys2Proof.Machine

/-! ### The reset values (R97) -/

/-- R20: CAPACITY reads MAX_FRAMES for every capacity up to the largest, whatever the buffers are. -/
theorem capacityWord_toNat_of_le {b : Block} (h : b.maxFrames ≤ Config.maxCapacity) :
    (capacityWord b).toNat = b.maxFrames := by
  rw [capacityWord, BitVec.toNat_setWidth_of_le (by decide), toNat_ofNat_count (by omega)]

/-- R97: what the host reads of each register after reset, and the sizes of the buffers. -/
def ReadsResetValues (b : Block) : Prop :=
  readReg b .id = 0x43524338#32 ∧ readReg b .config = 0x0000FF31#32 ∧ readReg b .cmd = 0#32 ∧
  readReg b .status = 0#32 ∧ readReg b .operand = 0#32 ∧ readReg b .len = 0#32 ∧ readReg b .result = 0#32 ∧
  readReg b .errCrc = 0#32 ∧ readReg b .errPos = 0#32 ∧ readReg b .fatalLen = 0#32 ∧
  (b.maxFrames ≤ 341 → (readReg b .capacity).toNat = b.maxFrames) ∧
  b.fbuf.length = 3 * b.maxFrames ∧ b.wbuf.length = b.maxFrames

/-- R97: the reset state of any build, at any reset, reads the reset values. -/
theorem readsResetValues_atReset (maxFrames epoch : Nat) : ReadsResetValues (Block.atReset maxFrames epoch) := by
  have hfbuf : (Block.atReset maxFrames epoch).fbuf.length = 3 * maxFrames := by simp [Block.atReset]
  have hwbuf : (Block.atReset maxFrames epoch).wbuf.length = maxFrames := by simp [Block.atReset]
  have hstatus : statusWord (Block.atReset maxFrames epoch) = 0#32 :=
    (statusWord_of_running rfl).trans (show 0#28 ++ 0#4 = 0#32 by decide)
  exact ⟨rfl, rfl, rfl, hstatus, rfl, rfl, rfl, rfl, rfl, rfl, capacityWord_toNat_of_le, hfbuf, hwbuf⟩

/-! ### A reset from any state (R97, R98) -/

/-- R32: an FBUF entry after a reset is that reset's draw for it. -/
theorem fbufAt_atReset {maxFrames i : Nat} (hi : i < 3 * maxFrames) (epoch : Nat) :
    fbufAt (Block.atReset maxFrames epoch) i = Config.resetFbuf epoch i := by
  simp [fbufAt, Block.atReset, hi]

/-- R32: a WBUF entry after a reset is that reset's draw for it. -/
theorem wbufAt_atReset {maxFrames j : Nat} (hj : j < maxFrames) (epoch : Nat) :
    wbufAt (Block.atReset maxFrames epoch) j = Config.resetWbuf epoch j := by
  simp [wbufAt, Block.atReset, hj]

/-- Settles O49: any reset leaves the reset state of the build; the port is empty at power-on; an access keeps the
halt. -/
theorem resetLeavesTheStatedValues : Obligations.ResetLeavesTheStatedValues := by
  refine ⟨readsResetValues_atReset _ _, rfl, step_idle rfl, fun s e rest hp he => ?_,
    fun s t e rest hp hstep hhalt hrun => ?_⟩
  · obtain ⟨t, hstep, -⟩ := step_event hp
    have hblock := step_reset_block hp he hstep
    exact ⟨t, hstep, hblock ▸ readsResetValues_atReset _ _, hblock ▸ rfl⟩
  · obtain ⟨-, -, -, hstatus⟩ := statusIsWrittenByCommandsAndClearedByReset
    obtain ⟨-, -, hcleared⟩ := hstatus s t e rest hp hstep
    exact hcleared hhalt hrun

/-- Settles O50: both events leave the reset state of the same build, at the next reset's draws. -/
theorem resetDuringACommandAbandonsIt : Obligations.ResetDuringACommandAbandonsIt := by
  intro s v rest hp
  exact ⟨_, _, step_resetDuringCommand hp, step_reset rfl, rfl, rfl, Nat.succ_ne_self s.epoch,
    fun _ hi => fbufAt_atReset hi _, fun _ hj => wbufAt_atReset hj _⟩

/-- Settles O51: power-on is a reset of a legal build. -/
theorem invariantHoldsAfterReset : Obligations.InvariantHoldsAfterReset :=
  inv_atReset maxFrames_legal.1 maxFrames_legal.2 0

/-! ### Commands complete (R99) -/

/-- Settles O6: a command's next state is the old one with the command's block. -/
theorem everyCommandCompletes : Obligations.EveryCommandCompletes :=
  fun i s => ⟨_, exec_eq i s, rfl, rfl, rfl⟩

end Sys2Proof.Machine
